-- ==== Sys2Proof/Word.lean ====
section
/-! DEFINITION. The words of the stepper_motion_sequencer (00_scope.md section 5): every value is unsigned. -/

namespace Sys2Proof

/-- A 32-bit word of the host port (20_memory.md R51). -/
abbrev Word := BitVec 32

/-- One byte of the host port (20_memory.md R53). -/
abbrev Byte := BitVec 8

/-- A step count, 16 bits unsigned (10_state.md R20, R21; 30_encoding.md R82). -/
abbrev Count := BitVec 16

/-- A byte offset in the 32-byte register window, 0x00 to 0x1F (20_memory.md R50). -/
abbrev Offset := BitVec 5

end Sys2Proof
end

