-- ==== Sys2Proof/Config.lean ====
section
/-! DEFINITION. The implementation parameters (00_scope.md section 4), their well-formedness (R6), the
configuration of the hardware as a constant with no body, and the free value of the interleaving. -/

namespace Sys2Proof

/-- The parameters of 00_scope.md section 4, as they are supplied at build time, before any check. `N` is the
length of the table. The direction patterns are written (DIR_L, DIR_R). -/
structure Params where
  rampTable    : List Nat    := [1]
  rampInterval : Nat         := 1
  rampDuration : Nat         := 1
  periodWidth  : Nat         := 16
  initDirHalf  : Bool × Bool := (false, false)
  initDirFull  : Bool × Bool := (true, false)
  base         : Nat         := 0
deriving DecidableEq, Repr

/-- N, the number of entries of the ramp table (00_scope.md section 4). -/
def Params.n (p : Params) : Nat := p.rampTable.length

/-- RAMP_TABLE[i] as a natural number. -/
def Params.entry (p : Params) (i : Nat) : Nat := p.rampTable.getD i 0

/-- A configuration is well-formed exactly when all of these hold (00_scope.md R6, in its order). -/
abbrev Params.WellFormed (p : Params) : Prop :=
  (1 ≤ p.n ∧ p.n ≤ 256) ∧
  (1 ≤ p.rampInterval ∧ p.rampInterval ≤ 65535) ∧
  p.rampDuration = p.n * p.rampInterval ∧
  (1 ≤ p.periodWidth ∧ p.periodWidth ≤ 32) ∧
  (∀ i < p.n, 1 ≤ p.entry i ∧ p.entry i ≤ 2 ^ p.periodWidth - 1) ∧
  (∀ i < p.n - 1, p.entry (i + 1) ≤ p.entry i) ∧
  p.initDirHalf ≠ p.initDirFull

/-- A configuration: parameters that satisfy 00_scope.md R6. An ill-formed one cannot be built, so no agent has a
step under it; `Machine.powerOn` refuses it by name. (The default values above only show that one exists.) -/
structure Config where
  params     : Params := {}
  wellFormed : params.WellFormed := by decide
deriving DecidableEq, Repr, Inhabited

/-- The configuration of the hardware: OPEN in the spec (00_scope.md section 4; U8 to U11), so a constant without a
body. DESIGN CHOICE, safe (log 2). -/
opaque Config.build : Config

/-- A way to choose between HOST and TIMER again and again, the n-th choice TIMER's exactly when `timerFirst n`, that
is weakly fair to TIMER: TIMER's turn always comes again (70_reset_and_hazards.md R235; U18). (The default only shows
that one exists.) -/
structure FairChoices where
  timerFirst : Nat → Bool := fun _ => true
  fair       : ∀ n, ∃ m, n ≤ m ∧ timerFirst m = true := by exact fun n => ⟨n, Nat.le_refl n, rfl⟩
deriving Inhabited

/-- The choices of the interleaving: left open by 60_exceptions.md R185 (U13), so a constant without a body, bound
only by the fairness of 70_reset_and_hazards.md R235. DESIGN CHOICE, safe (log 1). -/
opaque Config.fairChoices : FairChoices

/-- The free value of the interleaving: where HOST and TIMER can both move and State's `schedule` is empty, the
n-th such choice is TIMER's exactly when this is true (60_exceptions.md R185; log 1). -/
def Config.timerFirst (n : Nat) : Bool := Config.fairChoices.timerFirst n

/-- N (00_scope.md section 4). -/
def Config.n (c : Config) : Nat := c.params.n

/-- RAMP_INTERVAL. -/
def Config.interval (c : Config) : Nat := c.params.rampInterval

/-- RAMP_DURATION. -/
def Config.duration (c : Config) : Nat := c.params.rampDuration

/-- RAMP_TABLE[i] as the value PERIOD takes (10_state.md R33). -/
def Config.entry (c : Config) (i : Nat) : Word := BitVec.ofNat 32 (c.params.entry i)

/-- CFG-A of 95_test_vectors.md section 1: a test value of the spec, not the hardware's. -/
def Params.cfgA : Params :=
  { rampTable := [400, 300, 200, 100], rampInterval := 2, rampDuration := 8, periodWidth := 16,
    initDirHalf := (false, false), initDirFull := (true, false), base := 0 }

/-- CFG-B of 95_test_vectors.md section 1: a test value of the spec, not the hardware's. -/
def Params.cfgB : Params := { Params.cfgA with rampTable := [250], rampInterval := 1, rampDuration := 1 }

/-- CFG-C of 95_test_vectors.md section 1: a test value of the spec, not the hardware's. -/
def Params.cfgC : Params :=
  { Params.cfgA with rampTable := [30, 20, 10], rampInterval := 1, rampDuration := 3 }

/-- CFG-A, which is well-formed (95_test_vectors.md section 1). -/
def Config.cfgA : Config := { params := Params.cfgA, wellFormed := by decide }

/-- CFG-B, which is well-formed (95_test_vectors.md section 1). -/
def Config.cfgB : Config := { params := Params.cfgB, wellFormed := by decide }

/-- CFG-C, which is well-formed (95_test_vectors.md section 1). -/
def Config.cfgC : Config := { params := Params.cfgC, wellFormed := by decide }

end Sys2Proof
end

