-- ==== Sys2Proof/Syntax.lean ====
section
/-! DEFINITION. The operations of the block (every row of opcode_table.json), the accesses of the host port, what
HOST issues, and the lines of the assembler (30_encoding.md R88, R89). -/

namespace Sys2Proof

/-- The stepping mode of INIT: HALF = 0, FULL = 1 (30_encoding.md R83). -/
inductive Mode
  | half
  | full
deriving DecidableEq, Repr

/-- DIR of MOVS: FWD = 0, BWD = 1. The names are labels of the two DIR values only (30_encoding.md R83). -/
inductive Dir
  | fwd
  | bwd
deriving DecidableEq, Repr

/-- DIR of ROTC and ROTW: CW = 0, CCW = 1. The names are labels only (30_encoding.md R83). -/
inductive Rotation
  | cw
  | ccw
deriving DecidableEq, Repr

/-- WHEEL of ROTW, LEFT = 0, RIGHT = 1: the wheel that stays still (30_encoding.md R83). -/
inductive Wheel
  | left
  | right
deriving DecidableEq, Repr

/-- The twelve operations of opcode_table.json, one constructor a row. -/
inductive Instr
  /-- INIT (40_host_commands.md R100). -/
  | init (mode : Mode)
  /-- MOVS (40_host_commands.md R106). -/
  | movs (steps : Count) (dir : Dir)
  /-- ROTC (40_host_commands.md R107). -/
  | rotc (steps : Count) (dir : Rotation)
  /-- ROTW (40_host_commands.md R108). -/
  | rotw (steps : Count) (wheel : Wheel) (dir : Rotation)
  /-- RDSTAT (40_host_commands.md R115). -/
  | rdstat
  /-- RDREM (40_host_commands.md R116). -/
  | rdrem
  /-- RDTAKEN (40_host_commands.md R117). -/
  | rdtaken
  /-- RDPER (40_host_commands.md R118). -/
  | rdper
  /-- RDHALF (40_host_commands.md R119). -/
  | rdhalf
  /-- TICK, the event of agent TIMER (41_tick_fsm.md R141). -/
  | tick
  /-- WAITSTOP, the HOST loop over RDSTAT (40_host_commands.md R120). -/
  | waitstop
  /-- CANCEL, which is MOVS #0 (30_encoding.md R89). -/
  | cancel (dir : Dir)
deriving DecidableEq, Repr

/-- Any access HOST can make to the window: a read of so many bytes, or a write of these bytes, the one at the
lowest address first (20_memory.md R53, R54). -/
inductive Access
  | read (offset : Offset) (width : Nat)
  | write (offset : Offset) (data : List Byte)
deriving DecidableEq, Repr

/-- The pseudo-instructions of HOST code (30_encoding.md R89). -/
inductive Pseudo
  | waitstop
  | cancel (dir : Dir)
deriving DecidableEq, Repr

/-- What reaches the block from outside, in order: HOST's transactions and pseudo-instructions (20_memory.md R59),
and a hardware reset (70_reset_and_hazards.md R222). -/
inductive Input
  | access (a : Access)
  | pseudo (p : Pseudo)
  | reset
deriving DecidableEq, Repr

/-- The keywords of the assembler (30_encoding.md R88). -/
inductive Keyword
  | half
  | full
  | fwd
  | bwd
  | cw
  | ccw
  | left
  | right
deriving DecidableEq, Repr

/-- One line of HOST's program as it is written, its literals and keywords not yet checked (30_encoding.md R88,
R89). -/
inductive Line
  | init (mode : Keyword)
  | movs (steps : Nat) (dir : Keyword)
  | rotc (steps : Nat) (dir : Keyword)
  | rotw (steps : Nat) (wheel : Keyword) (dir : Keyword)
  | rdstat
  | rdrem
  | rdtaken
  | rdper
  | rdhalf
  | cmd (word : Nat)
  | waitstop
  | cancel (dir : Keyword)
deriving DecidableEq, Repr

end Sys2Proof
end

