-- ==== Sys2Proof/Machine/State.lean ====
section
/-! DEFINITION. The state of the machine (10_state.md), the reasons a step can stop, and the state after reset
(70_reset_and_hazards.md R220). -/

namespace Sys2Proof.Machine

/-- PULSE_PHASE, "a two-state enum" (10_state.md R24): Low = 0, High = 1. -/
inductive PulsePhase
  | low
  | high
deriving DecidableEq, Repr

/-- The two agents (00_scope.md R5). -/
inductive Agent
  | host
  | timer
deriving DecidableEq, Repr

/-- The registers of the block (10_state.md section 1, section 5). -/
structure Block where
  /-- STEPS_REMAINING (10_state.md R20). -/
  stepsRemaining : Count
  /-- STEPS_TAKEN (10_state.md R21). -/
  stepsTaken : Count
  /-- RAMP_STAGE (10_state.md R22). -/
  rampStage : BitVec 8
  /-- PHASE_MASK, bit 0 the left motor, bit 1 the right (10_state.md R23). -/
  phaseMask : BitVec 2
  /-- PULSE_PHASE (10_state.md R24). -/
  pulsePhase : PulsePhase
  /-- RUNNING (10_state.md R25). -/
  running : Bool
  /-- PERIOD, in its low PERIOD_WIDTH bits (10_state.md R26; log 4). -/
  period : Word
  /-- HALF_PERIOD, in its low PERIOD_WIDTH bits (10_state.md R27; log 4). -/
  halfPeriod : Word
  /-- MODE (10_state.md R28). -/
  mode : Mode
  /-- PULSE_L, an output line (10_state.md R29). -/
  pulseL : Bool
  /-- PULSE_R, an output line (10_state.md R29). -/
  pulseR : Bool
  /-- DIR_L, an output line (10_state.md R30). -/
  dirL : Bool
  /-- DIR_R, an output line (10_state.md R30). -/
  dirR : Bool
deriving DecidableEq, Repr

/-- The whole state of a run: the block's registers, and the model's own fields beside them (INVENTORY.md, State). -/
structure State where
  /-- The build-time configuration, a parameter of the step relation that no step writes (00_scope.md R7; log 2). -/
  config : Config
  /-- The registers of the block. -/
  block : Block
  /-- What reaches the block from outside and has not yet been taken, first next (20_memory.md R59; log 5). -/
  inputs : List Input
  /-- Which agent moves at the next steps at which both can, first next (60_exceptions.md R185; log 1). -/
  schedule : List Agent
  /-- How many such choices `Config.timerFirst` has made (log 1). -/
  choices : Nat
  /-- The values reads have returned to HOST, newest first (40_host_commands.md R115 to R119; log 10). -/
  readLog : List Word
deriving DecidableEq, Repr

/-- Why a step is stuck: no agent has a step. The block itself raises no exception (60_exceptions.md R180). -/
inductive Fault
  /-- Raised by TICK where RUNNING = 0: "In a state with RUNNING = 0 agent TIMER has no step" (41_tick_fsm.md R140).
  `step` never takes it. Safe. -/
  | timerHasNoStep
  /-- Raised by `step` where RUNNING = 0 and nothing is left to issue: "In a quiescent state no agent can step"
  (70_reset_and_hazards.md R234). That a hardware reset still in `inputs` is something left, so that the state steps and
  is not quiescent, is the MODEL's choice (DESIGN CHOICE, log 11). Safe. -/
  | quiescent
deriving DecidableEq, Repr

/-- What the model gives no meaning, as the spec tells a model to (00_scope.md section 5, `refuse`). -/
inductive Refusal
  /-- Raised by exec's arm of an instruction that has no meaning yet; no arm is left. Safe. -/
  | notModelled (mnemonic : String)
  /-- Raised by a write of a reserved command word (30_encoding.md R85). Safe. -/
  | reservedCommand
  /-- Raised by an access 20_memory.md R54 does not admit. Safe. -/
  | unadmittedAccess
  /-- Raised by `powerOn` under a configuration that breaks 00_scope.md R6. Safe. -/
  | illFormedConfiguration
deriving DecidableEq, Repr

/-- The registers after a reset under a configuration (70_reset_and_hazards.md R220). -/
def Block.reset (c : Config) : Block where
  stepsRemaining := 0#16
  stepsTaken := 0#16
  rampStage := 0#8
  phaseMask := 0b00#2
  pulsePhase := .low
  running := false
  period := c.entry 0
  halfPeriod := c.entry 0 / 2#32
  mode := .half
  pulseL := false
  pulseR := false
  dirL := false
  dirR := false

/-- The state after reset under a configuration: nothing issued yet (log 5), no choice made (log 1), nothing read
(log 10). -/
def State.resetUnder (c : Config) : State where
  config := c
  block := Block.reset c
  inputs := []
  schedule := []
  choices := 0
  readLog := []

/-- The machine right after reset, under the configuration of the hardware. -/
def State.reset : State := State.resetUnder Config.build

end Sys2Proof.Machine
end

