-- ==== Sys2Proof/Machine/Flags.lean ====
section
/-! DEFINITION. The block's only flags, RUNNING and PULSE_PHASE (10_state.md R32), and what they select: the control
class of R31 and the stage a TICK runs (41_tick_fsm.md R141). -/

namespace Sys2Proof.Machine

/-- RUNNING <- (s != 0) (40_host_commands.md R105). -/
def runningAfterMove (s : Count) : Bool := s != 0#16

/-- PULSE_PHASE as STATUS reports it: 1 = High (20_memory.md R52). -/
def PulsePhase.bit : PulsePhase → Bool
  | .low => false
  | .high => true

/-- The reachable control classes (10_state.md R31). -/
inductive ControlClass
  | idle
  | ready
  | pulse
  | final
deriving DecidableEq, Repr

/-- The control class of a state, none for the two kinds of state R31 calls unreachable. -/
def controlClass (b : Block) : Option ControlClass :=
  match b.running, b.pulsePhase, b.stepsRemaining == 0#16 with
  | false, _, true => some .idle
  | false, _, false => none
  | true, .low, false => some .ready
  | true, .low, true => none
  | true, .high, false => some .pulse
  | true, .high, true => some .final

/-- The stage of a TICK: stop guard, trailing edge, or leading edge with its ramp (41_tick_fsm.md R141). -/
inductive TickStage
  | stop
  | fall
  | rise
deriving DecidableEq, Repr

/-- Exactly one of the stages 1, 2 and 3 runs; the stop guard takes priority over the trailing edge
(41_tick_fsm.md R141, 60_exceptions.md R185). -/
def tickStage (b : Block) : TickStage :=
  if b.stepsRemaining = 0#16 then .stop
  else
    match b.pulsePhase with
    | .high => .fall
    | .low => .rise

end Sys2Proof.Machine
end

