-- ==== Sys2Proof/WellFormed.lean ====
section
/-! DEFINITION. Well-formed lines of the assembler, the instructions that have words of their own, and the shape of
an admitted access. The operands of Instr have exactly the widths of their fields, so every term of Instr is
well-formed as it stands (30_encoding.md R82, R83); the checks are on what is written and on what is accessed. -/

namespace Sys2Proof

/-- The keyword names a stepping mode. -/
def Keyword.isMode (k : Keyword) : Bool := k == .half || k == .full

/-- The keyword names a direction of MOVS. -/
def Keyword.isDir (k : Keyword) : Bool := k == .fwd || k == .bwd

/-- The keyword names a direction of ROTC and ROTW. -/
def Keyword.isRotation (k : Keyword) : Bool := k == .cw || k == .ccw

/-- The keyword names a wheel. -/
def Keyword.isWheel (k : Keyword) : Bool := k == .left || k == .right

/-- The assembler accepts the line: `#s` is from 0 to 65535, and each keyword is one its command takes
(30_encoding.md R88: CW and CCW are rejected on MOVS, FWD and BWD on ROTC and ROTW). -/
def Line.wellFormed : Line → Bool
  | .init k => k.isMode
  | .movs s k => decide (s < 65536) && k.isDir
  | .rotc s k => decide (s < 65536) && k.isRotation
  | .rotw s w k => decide (s < 65536) && (w.isWheel && k.isRotation)
  | .cmd w => decide (w < 2 ^ 32)
  | .cancel k => k.isDir
  | .rdstat => true
  | .rdrem => true
  | .rdtaken => true
  | .rdper => true
  | .rdhalf => true
  | .waitstop => true

/-- The instruction has words of its own: TICK has no encoding (30_encoding.md R90), and WAITSTOP and CANCEL are
other names for RDSTAT's and MOVS's words (R89). -/
def Instr.hasOwnWord : Instr → Bool
  | .init _ => true
  | .movs _ _ => true
  | .rotc _ _ => true
  | .rotw _ _ _ => true
  | .rdstat => true
  | .rdrem => true
  | .rdtaken => true
  | .rdper => true
  | .rdhalf => true
  | .tick => false
  | .waitstop => false
  | .cancel _ => false

/-- The access has a shape 20_memory.md R54 admits: a 32-bit read at 0x04, 0x08, 0x0C, 0x10 or 0x14, or a 32-bit
write at 0x00. (Whether the word written is reserved is Decode's question.) -/
def Access.admitted : Access → Bool
  | .read o width => width == 4 && [0x04#5, 0x08#5, 0x0C#5, 0x10#5, 0x14#5].contains o
  | .write o data => data.length == 4 && o == 0x00#5

end Sys2Proof
end

