-- ==== Sys2Proof/Decode.lean ====
section
/-! DEFINITION. The decoder of the host port, total on every access, rejecting by name (30_encoding.md R80 to R86,
20_memory.md R51, R53, R54); the encoder (R87); the assembler (R88, R89); and the opcode table's view of the words. -/

namespace Sys2Proof

/-- Why an access has no meaning in a model. -/
inductive Reject
  /-- A write of a reserved command word (30_encoding.md R85). -/
  | reservedCommand
  /-- An access 20_memory.md R54 does not admit. -/
  | unadmittedAccess
deriving DecidableEq, Repr

/-- What the decoder answers: one instruction, or a rejection by name. -/
inductive Decoded
  | instr (i : Instr)
  | rejected (r : Reject)
deriving DecidableEq, Repr

/-! ## The one-bit operands (30_encoding.md R83) -/

/-- MODE: HALF = 0, FULL = 1. -/
def Mode.bit : Mode → Bool
  | .half => false
  | .full => true

/-- The mode a bit stands for. -/
def Mode.ofBit (b : Bool) : Mode := if b then .full else .half

/-- DIR of MOVS: FWD = 0, BWD = 1. -/
def Dir.bit : Dir → Bool
  | .fwd => false
  | .bwd => true

/-- The direction a bit stands for. -/
def Dir.ofBit (b : Bool) : Dir := if b then .bwd else .fwd

/-- DIR of ROTC and ROTW: CW = 0, CCW = 1. -/
def Rotation.bit : Rotation → Bool
  | .cw => false
  | .ccw => true

/-- The rotation a bit stands for. -/
def Rotation.ofBit (b : Bool) : Rotation := if b then .ccw else .cw

/-- WHEEL: LEFT = 0, RIGHT = 1. -/
def Wheel.bit : Wheel → Bool
  | .left => false
  | .right => true

/-- The wheel a bit stands for. -/
def Wheel.ofBit (b : Bool) : Wheel := if b then .right else .left

/-! ## Byte order (20_memory.md R53) -/

/-- The four bytes of a word, byte k holding bits [8k+7:8k]. -/
def wordBytes (w : Word) : List Byte :=
  [w.extractLsb' 0 8, w.extractLsb' 8 8, w.extractLsb' 16 8, w.extractLsb' 24 8]

/-- The word that four bytes make, the first the least significant; other lengths make none. -/
def bytesWord : List Byte → Option Word
  | [b0, b1, b2, b3] => some (b3 ++ b2 ++ b1 ++ b0)
  | _ => none

/-! ## The command word (30_encoding.md R80 to R86) -/

/-- STEPS, bits 15:0. -/
def stepsField (w : Word) : Count := w.extractLsb' 0 16

/-- OP, bits 18:16. -/
def opField (w : Word) : BitVec 3 := w.extractLsb' 16 3

/-- The reserved bits 31:23 and 19 hold no 1 (30_encoding.md R85). -/
def reservedBitsClear (w : Word) : Bool := w.extractLsb' 23 9 == 0#9 && !w.getLsbD 19

/-- Decode of 30_encoding.md R86: one of the four commands, or nothing for a reserved word. -/
def decodeWord (w : Word) : Option Instr :=
  if reservedBitsClear w then
    if opField w = 0b001#3 then some (.init (Mode.ofBit (w.getLsbD 22)))
    else if opField w = 0b010#3 then some (.movs (stepsField w) (Dir.ofBit (w.getLsbD 20)))
    else if opField w = 0b011#3 then some (.rotc (stepsField w) (Rotation.ofBit (w.getLsbD 20)))
    else if opField w = 0b100#3 then
      some (.rotw (stepsField w) (Wheel.ofBit (w.getLsbD 21)) (Rotation.ofBit (w.getLsbD 20)))
    else none
  else none

/-- The read at an offset of the window (20_memory.md R51, R54). -/
def decodeReadOffset (o : Offset) : Option Instr :=
  if o = 0x04#5 then some .rdstat
  else if o = 0x08#5 then some .rdrem
  else if o = 0x0C#5 then some .rdtaken
  else if o = 0x10#5 then some .rdper
  else if o = 0x14#5 then some .rdhalf
  else none

/-- The write of a command word to CMD (20_memory.md R51). -/
def decodeCommand (w : Word) : Decoded :=
  match decodeWord w with
  | some i => .instr i
  | none => .rejected .reservedCommand

/-- What an access does: the one instruction it is, or its rejection (20_memory.md R54). -/
def decodeAccess : Access → Decoded
  | .read o width =>
    if width = 4 then
      match decodeReadOffset o with
      | some i => .instr i
      | none => .rejected .unadmittedAccess
    else .rejected .unadmittedAccess
  | .write o data =>
    if o = 0x00#5 then
      match bytesWord data with
      | some w => decodeCommand w
      | none => .rejected .unadmittedAccess
    else .rejected .unadmittedAccess

/-! ## The encoder (30_encoding.md R87) -/

/-- A one-bit operand at bit position `pos` of the command word. -/
def operandBit (b : Bool) (pos : Nat) : Word := (BitVec.ofBool b).setWidth 32 <<< pos

/-- enc of 30_encoding.md R87, the fields a command ignores written as 0. The words of CANCEL are MOVS #0's (R89);
the reads, WAITSTOP and TICK have no command word. -/
def encodeWord : Instr → Option Word
  | .init m => some (0x00010000#32 ||| operandBit m.bit 22)
  | .movs s d => some (0x00020000#32 ||| operandBit d.bit 20 ||| s.setWidth 32)
  | .rotc s d => some (0x00030000#32 ||| operandBit d.bit 20 ||| s.setWidth 32)
  | .rotw s w d => some (0x00040000#32 ||| operandBit w.bit 21 ||| operandBit d.bit 20 ||| s.setWidth 32)
  | .cancel d => some (0x00020000#32 ||| operandBit d.bit 20)
  | .rdstat => none
  | .rdrem => none
  | .rdtaken => none
  | .rdper => none
  | .rdhalf => none
  | .tick => none
  | .waitstop => none

/-- MemWrite(0x00, 4, w) (30_encoding.md R88). -/
def writeCommand (w : Word) : Access := .write 0x00#5 (wordBytes w)

/-- The transaction of an instruction (30_encoding.md R88); WAITSTOP's is the read it repeats (R89), and TICK has
none (R90). -/
def encode : Instr → Option Access
  | .init m => (encodeWord (.init m)).map writeCommand
  | .movs s d => (encodeWord (.movs s d)).map writeCommand
  | .rotc s d => (encodeWord (.rotc s d)).map writeCommand
  | .rotw s w d => (encodeWord (.rotw s w d)).map writeCommand
  | .cancel d => (encodeWord (.cancel d)).map writeCommand
  | .rdstat => some (.read 0x04#5 4)
  | .rdrem => some (.read 0x08#5 4)
  | .rdtaken => some (.read 0x0C#5 4)
  | .rdper => some (.read 0x10#5 4)
  | .rdhalf => some (.read 0x14#5 4)
  | .waitstop => some (.read 0x04#5 4)
  | .tick => none

/-! ## The assembler (30_encoding.md R88, R89) -/

/-- The mode a keyword names. -/
def Keyword.mode? : Keyword → Option Mode
  | .half => some .half
  | .full => some .full
  | _ => none

/-- The direction of MOVS a keyword names. -/
def Keyword.dir? : Keyword → Option Dir
  | .fwd => some .fwd
  | .bwd => some .bwd
  | _ => none

/-- The rotation a keyword names. -/
def Keyword.rotation? : Keyword → Option Rotation
  | .cw => some .cw
  | .ccw => some .ccw
  | _ => none

/-- The wheel a keyword names. -/
def Keyword.wheel? : Keyword → Option Wheel
  | .left => some .left
  | .right => some .right
  | _ => none

/-- The step count a literal `#s` stands for: a literal above 65535 is an assembly error (30_encoding.md R88). -/
def stepLiteral (s : Nat) : Option Count := if s < 65536 then some (BitVec.ofNat 16 s) else none

/-- The instruction a line names; a raw `CMD` line names none of its own. -/
def Line.instr? : Line → Option Instr
  | .init k => do return .init (← k.mode?)
  | .movs s k => do return .movs (← stepLiteral s) (← k.dir?)
  | .rotc s k => do return .rotc (← stepLiteral s) (← k.rotation?)
  | .rotw s w k => do return .rotw (← stepLiteral s) (← w.wheel?) (← k.rotation?)
  | .cancel k => do return .cancel (← k.dir?)
  | .rdstat => some .rdstat
  | .rdrem => some .rdrem
  | .rdtaken => some .rdtaken
  | .rdper => some .rdper
  | .rdhalf => some .rdhalf
  | .waitstop => some .waitstop
  | .cmd _ => none

/-- What HOST issues for an instruction: its transaction, or the pseudo-instruction it is (30_encoding.md R88,
R89). TICK is not HOST's (R90). -/
def Instr.input? : Instr → Option Input
  | .waitstop => some (.pseudo .waitstop)
  | .cancel d => some (.pseudo (.cancel d))
  | i => (encode i).map .access

/-- The assembler: what HOST issues for a line, nothing for a line it rejects (30_encoding.md R88). -/
def Line.assemble : Line → Option Input
  | .cmd w => if w < 2 ^ 32 then some (.access (writeCommand (BitVec.ofNat 32 w))) else none
  | l => l.instr?.bind Instr.input?

/-! ## The opcode table's words (30_encoding.md section 5; DESIGN CHOICE, log 14) -/

/-- The transaction whose bits, as opcode_table.json numbers them, are `w`: an offset of a REG_READ row has at most
16 bits (its low 5 select the register), a command word has bits up to its OP at 18:16 and above. -/
def tableAccess (nbits w : Nat) : Access :=
  if nbits ≤ 16 then .read (BitVec.ofNat 5 w) 4 else writeCommand (BitVec.ofNat 32 w)

/-- What the decoder reads from a table row's bits; a row of no bits is the event TICK (30_encoding.md R90). -/
def decodeTableWord (nbits w : Nat) : Option Instr :=
  if nbits = 0 then some .tick
  else
    match decodeAccess (tableAccess nbits w) with
    | .instr i => some i
    | .rejected _ => none

end Sys2Proof
end

