-- ==== Sys2Proof/Machine/Operands.lean ====
section
/-! DEFINITION. What the operands of the commands select: the direction lines INIT sets, and the step count, mask and
direction lines of each move command (40_host_commands.md R100, R106 to R108). -/

namespace Sys2Proof.Machine

/-- What a move command hands to MoveCore (40_host_commands.md R105). -/
structure MoveOperands where
  steps : Count
  mask  : BitVec 2
  dirL  : Bool
  dirR  : Bool
deriving DecidableEq, Repr

/-- (DIR_L, DIR_R) as INIT sets them (40_host_commands.md R100). -/
def initDirs (c : Config) : Mode → Bool × Bool
  | .half => c.params.initDirHalf
  | .full => c.params.initDirFull

/-- PHASE_MASK of ROTW: the named wheel is masked out (40_host_commands.md R108). -/
def wheelMask : Wheel → BitVec 2
  | .left => 0b10#2
  | .right => 0b01#2

/-- MoveCore(s, 0b11, dir, dir) (40_host_commands.md R106). -/
def movsOperands (s : Count) (d : Dir) : MoveOperands := ⟨s, 0b11#2, d.bit, d.bit⟩

/-- MoveCore(s, 0b11, dir, NOT dir) (40_host_commands.md R107). -/
def rotcOperands (s : Count) (d : Rotation) : MoveOperands := ⟨s, 0b11#2, d.bit, !d.bit⟩

/-- MoveCore(s, m, dir, NOT dir) (40_host_commands.md R108). -/
def rotwOperands (s : Count) (w : Wheel) (d : Rotation) : MoveOperands := ⟨s, wheelMask w, d.bit, !d.bit⟩

end Sys2Proof.Machine
end

