-- ==== Sys2Proof/Machine/Ops.lean ====
section
/-! DEFINITION. The shared operations: what INIT, a move command and each stage of TICK write, the read-back
registers, the window's bytes, reset and power-on, and which agent moves next. The block takes no exception
(60_exceptions.md R180), and a TICK's entry saves nothing and its end restores nothing (R186, R187), so there is no
operation for either. -/

namespace Sys2Proof.Machine

/-! ## The timer (60_exceptions.md R189) -/

/-- SetPeriod(RAMP_TABLE[i]): PERIOD and HALF_PERIOD, in one step (10_state.md R26, R27). -/
def Block.setPeriod (c : Config) (i : Nat) (b : Block) : Block :=
  { b with period := c.entry i, halfPeriod := c.entry i / 2#32 }

/-! ## Host commands -/

/-- INIT's writes; every register is one of them (40_host_commands.md R100, R101). -/
def Block.init (c : Config) (m : Mode) (b : Block) : Block :=
  Block.setPeriod c 0
    { b with
      mode := m
      dirL := (initDirs c m).1
      dirR := (initDirs c m).2
      stepsRemaining := 0#16
      stepsTaken := 0#16
      rampStage := 0#8
      phaseMask := 0b00#2
      pulsePhase := .low
      pulseL := false
      pulseR := false
      running := false }

/-- MoveCore; PERIOD, HALF_PERIOD, RAMP_STAGE and MODE are not written (40_host_commands.md R105). -/
def Block.move (o : MoveOperands) (b : Block) : Block :=
  { b with
    dirL := o.dirL
    dirR := o.dirR
    phaseMask := o.mask
    stepsTaken := 0#16
    stepsRemaining := o.steps
    pulsePhase := .low
    pulseL := false
    pulseR := false
    running := runningAfterMove o.steps }

/-! ## The stages of TICK -/

/-- Stage 1, the stop guard: RUNNING only (41_tick_fsm.md R142). -/
def Block.stop (b : Block) : Block := { b with running := false }

/-- Stage 2, the trailing edge: both lines (41_tick_fsm.md R143). -/
def Block.fall (b : Block) : Block := { b with pulseL := false, pulseR := false, pulsePhase := .low }

/-- Stage 3, the leading edge and the step count (41_tick_fsm.md R144). It runs with STEPS_REMAINING at least 1, and
in every reachable state STEPS_TAKEN is below 65535 there (R147; log 15). -/
def Block.rise (b : Block) : Block :=
  { b with
    pulseL := b.phaseMask.getLsbD 0
    pulseR := b.phaseMask.getLsbD 1
    pulsePhase := .high
    stepsRemaining := b.stepsRemaining - 1#16
    stepsTaken := b.stepsTaken + 1#16 }

/-- The boundary: min(STEPS_TAKEN, STEPS_REMAINING) (41_tick_fsm.md R145). -/
def Block.boundary (b : Block) : Nat := min b.stepsTaken.toNat b.stepsRemaining.toNat

/-- min(b div RAMP_INTERVAL, N - 1), the division rounding down (41_tick_fsm.md R145; log 16). -/
def rampStageOf (c : Config) (boundary : Nat) : Nat := min (boundary / c.interval) (c.n - 1)

/-- Stage 4: RAMP_STAGE always, PERIOD and HALF_PERIOD below RAMP_DURATION only (41_tick_fsm.md R145, R146). -/
def Block.ramp (c : Config) (b : Block) : Block :=
  let stage := rampStageOf c b.boundary
  let staged := { b with rampStage := BitVec.ofNat 8 stage }
  if b.boundary < c.duration then Block.setPeriod c stage staged else staged

/-- TICK, the whole step (41_tick_fsm.md R141). -/
def Block.tick (c : Config) (b : Block) : Block :=
  match tickStage b with
  | .stop => b.stop
  | .fall => b.fall
  | .rise => Block.ramp c b.rise

/-! ## The read-back registers (20_memory.md R51, R52) -/

/-- STATUS, the concatenation of 20_memory.md R52. -/
def Block.status (b : Block) : Word :=
  0#8 ++ b.rampStage ++ 0#7 ++ BitVec.ofBool b.mode.bit ++ BitVec.ofBool b.dirR ++ BitVec.ofBool b.dirL ++
    BitVec.ofBool b.pulseR ++ BitVec.ofBool b.pulseL ++ BitVec.ofBool (b.phaseMask.getLsbD 1) ++
    BitVec.ofBool (b.phaseMask.getLsbD 0) ++ BitVec.ofBool b.pulsePhase.bit ++ BitVec.ofBool b.running

/-- The low PERIOD_WIDTH bits of a word, the bits above them 0 (20_memory.md R51; log 4). -/
def lowPeriodBits (c : Config) (w : Word) : Word := BitVec.ofNat 32 (w.toNat % 2 ^ c.params.periodWidth)

/-- The registers HOST can read. -/
inductive ReadRegister
  | status
  | remaining
  | taken
  | periodRd
  | halfRd
deriving DecidableEq, Repr

/-- What a read of a register returns (20_memory.md R51). -/
def Block.readValue (c : Config) (b : Block) : ReadRegister → Word
  | .status => b.status
  | .remaining => b.stepsRemaining.setWidth 32
  | .taken => b.stepsTaken.setWidth 32
  | .periodRd => lowPeriodBits c b.period
  | .halfRd => lowPeriodBits c b.halfPeriod

/-- The offset of a register in the window (20_memory.md R51). -/
def ReadRegister.offset : ReadRegister → Offset
  | .status => 0x04#5
  | .remaining => 0x08#5
  | .taken => 0x0C#5
  | .periodRd => 0x10#5
  | .halfRd => 0x14#5

/-- The readable register at an offset, if there is one. -/
def ReadRegister.at? (o : Offset) : Option ReadRegister :=
  [ReadRegister.status, .remaining, .taken, .periodRd, .halfRd].find? fun r => r.offset == o

/-! ## The window in the platform's addresses (20_memory.md R53, R58) -/

/-- The host address of an offset: BASE plus the offset. -/
def Config.address (c : Config) (o : Offset) : Nat := c.params.base + o.toNat

/-- The offset of a host address, for the 32 addresses of the window. -/
def Config.offset? (c : Config) (a : Nat) : Option Offset :=
  if c.params.base ≤ a ∧ a < c.params.base + 32 then some (BitVec.ofNat 5 (a - c.params.base)) else none

/-- The byte a readable register keeps at a host address: byte k of the register at offset o lies at BASE + o + k.
Layout only: no byte access is admitted (20_memory.md R53, R54). -/
def windowByte (c : Config) (b : Block) (a : Nat) : Option Byte := do
  let o ← Config.offset? c a
  let r ← ReadRegister.at? (o &&& 0b11100#5)
  (wordBytes (b.readValue c r))[(o &&& 0b00011#5).toNat]?

/-! ## Updates of the state -/

/-- The registers of the block replaced, and nothing else. -/
def State.withBlock (s : State) (b : Block) : State := { s with block := b }

/-- A value returned to HOST, and nothing else. -/
def State.returning (s : State) (w : Word) : State := { s with readLog := w :: s.readLog }

/-- An input put before all others, and nothing else. -/
def State.issuing (s : State) (e : Input) : State := { s with inputs := e :: s.inputs }

/-- A read of a register by HOST: its value goes to HOST, no register changes (20_memory.md R55). -/
def hostRead (r : ReadRegister) (s : State) : State := s.returning (s.block.readValue s.config r)

/-- A move command on the state: MoveCore, one atomic step (40_host_commands.md R105). -/
def hostMove (o : MoveOperands) (s : State) : State := s.withBlock (s.block.move o)

/-- A hardware reset: every register takes its reset value; what is outside the block stays
(70_reset_and_hazards.md R220, R222; log 11). -/
def hardwareReset (s : State) : State := s.withBlock (Block.reset s.config)

/-- Power-on under parameters: an ill-formed configuration is refused, and then no agent has a step under it
(00_scope.md R6, 60_exceptions.md R182; log 3); a well-formed one is fixed and the block reset
(70_reset_and_hazards.md R223). -/
def powerOn (p : Params) : Host.Outcome State Fault Refusal :=
  if h : p.WellFormed then .next (State.resetUnder ⟨p, h⟩) else .refused .illFormedConfiguration

/-! ## Which agent moves (20_memory.md R59, 60_exceptions.md R185) -/

/-- Who takes the next step, with the state that step starts from. -/
inductive Activation
  /-- No agent can step (70_reset_and_hazards.md R234). -/
  | none
  /-- TIMER takes a TICK. -/
  | timer (s : State)
  /-- The block takes an input. -/
  | input (e : Input) (s : State)
deriving DecidableEq, Repr

/-- TIMER can move exactly while RUNNING = 1, HOST exactly while it has something left to issue; where both can,
`schedule` says which, and where it is empty the free value says (log 1). -/
def arbitrate (s : State) : Activation :=
  match s.inputs with
  | [] => if s.block.running then .timer s else .none
  | e :: rest =>
    if s.block.running then
      match s.schedule with
      | .timer :: later => .timer { s with schedule := later }
      | .host :: later => .input e { s with inputs := rest, schedule := later }
      | [] =>
        if Config.timerFirst s.choices then .timer { s with choices := s.choices + 1 }
        else .input e { s with inputs := rest, choices := s.choices + 1 }
    else .input e { s with inputs := rest }

/-- What an input turns out to be. -/
inductive Fetched
  | instr (i : Instr)
  | reset
  | refused (r : Refusal)
deriving DecidableEq, Repr

/-- The refusal a rejection of the decoder becomes (60_exceptions.md R181). -/
def Reject.refusal : Reject → Refusal
  | .reservedCommand => .reservedCommand
  | .unadmittedAccess => .unadmittedAccess

/-- The instruction an input is. -/
def fetch : Input → Fetched
  | .access a =>
    match decodeAccess a with
    | .instr i => .instr i
    | .rejected r => .refused (Reject.refusal r)
  | .pseudo .waitstop => .instr .waitstop
  | .pseudo (.cancel d) => .instr (.cancel d)
  | .reset => .reset

end Sys2Proof.Machine
end

