-- ==== Sys2Proof/Machine/Commands.lean ====
section
/-! DEFINITION. The host commands INIT, MOVS, ROTC, ROTW (40_host_commands.md section 1, section 2) and CANCEL
(30_encoding.md R89). Each is one atomic step and completes in every state. -/

namespace Sys2Proof.Machine

/-- INIT (40_host_commands.md R100). -/
def execInit (mode : Mode) (s : State) : Host.Outcome State Fault Refusal :=
  .next (s.withBlock (Block.init s.config mode s.block))

/-- MOVS (40_host_commands.md R106). -/
def execMovs (steps : Count) (dir : Dir) (s : State) : Host.Outcome State Fault Refusal :=
  .next (hostMove (movsOperands steps dir) s)

/-- ROTC (40_host_commands.md R107). -/
def execRotc (steps : Count) (dir : Rotation) (s : State) : Host.Outcome State Fault Refusal :=
  .next (hostMove (rotcOperands steps dir) s)

/-- ROTW (40_host_commands.md R108). -/
def execRotw (steps : Count) (wheel : Wheel) (dir : Rotation) (s : State) : Host.Outcome State Fault Refusal :=
  .next (hostMove (rotwOperands steps wheel dir) s)

/-- CANCEL, which is MOVS #0 (30_encoding.md R89, 70_reset_and_hazards.md R232). -/
def execCancel (dir : Dir) (s : State) : Host.Outcome State Fault Refusal :=
  .next (hostMove (movsOperands 0#16 dir) s)

end Sys2Proof.Machine
end

