-- ==== Sys2Proof/Machine/Reads.lean ====
section
/-! DEFINITION. The status reads (40_host_commands.md R115 to R119) and the polling loop WAITSTOP (R120). -/

namespace Sys2Proof.Machine

/-- RDSTAT (40_host_commands.md R115). -/
def execRdstat (s : State) : Host.Outcome State Fault Refusal := .next (hostRead .status s)

/-- RDREM (40_host_commands.md R116). -/
def execRdrem (s : State) : Host.Outcome State Fault Refusal := .next (hostRead .remaining s)

/-- RDTAKEN (40_host_commands.md R117). -/
def execRdtaken (s : State) : Host.Outcome State Fault Refusal := .next (hostRead .taken s)

/-- RDPER (40_host_commands.md R118). -/
def execRdper (s : State) : Host.Outcome State Fault Refusal := .next (hostRead .periodRd s)

/-- RDHALF (40_host_commands.md R119). -/
def execRdhalf (s : State) : Host.Outcome State Fault Refusal := .next (hostRead .halfRd s)

/-- WAITSTOP, one round of `L: RDSTAT; if (result & 1) != 0 goto L`: it reads STATUS, and where bit 0 is 1 HOST
issues it again (40_host_commands.md R120, 30_encoding.md R89; log 9). It goes back to the HEAD of `inputs`, so while
RUNNING = 1 no other entry, neither a hardware reset nor another bus master's transaction, falls between two reads of
one WAITSTOP, only TICKs do. The spec leaves that open: DESIGN CHOICE (log 9). A poll with something in between is
written as RDSTAT inputs around it. -/
def execWaitstop (s : State) : Host.Outcome State Fault Refusal :=
  if (s.block.readValue s.config .status).getLsbD 0 then
    .next ((hostRead .status s).issuing (.pseudo .waitstop))
  else .next (hostRead .status s)

end Sys2Proof.Machine
end

