-- ==== Sys2Proof/Machine/Tick.lean ====
section
/-! DEFINITION. TICK, the step of agent TIMER (41_tick_fsm.md R140, R141). -/

namespace Sys2Proof.Machine

/-- TICK: enabled only while RUNNING = 1; where RUNNING = 0, TIMER has no step (41_tick_fsm.md R140; log 8). -/
def execTick (s : State) : Host.Outcome State Fault Refusal :=
  if s.block.running then .next (s.withBlock (Block.tick s.config s.block)) else .fault .timerHasNoStep

end Sys2Proof.Machine
end

