-- ==== Sys2Proof/Machine/Dispatch.lean ====
section
/-! DEFINITION. One arm per constructor of Instr. -/

namespace Sys2Proof.Machine

/-- The meaning of an instruction: one atomic step of its agent (00_scope.md R9). -/
def exec (i : Instr) (s : State) : Host.Outcome State Fault Refusal :=
  match i with
  | .init mode => Sys2Proof.Machine.execInit mode s
  | .movs steps dir => Sys2Proof.Machine.execMovs steps dir s
  | .rotc steps dir => Sys2Proof.Machine.execRotc steps dir s
  | .rotw steps wheel dir => Sys2Proof.Machine.execRotw steps wheel dir s
  | .rdstat => Sys2Proof.Machine.execRdstat s
  | .rdrem => Sys2Proof.Machine.execRdrem s
  | .rdtaken => Sys2Proof.Machine.execRdtaken s
  | .rdper => Sys2Proof.Machine.execRdper s
  | .rdhalf => Sys2Proof.Machine.execRdhalf s
  | .tick => Sys2Proof.Machine.execTick s
  | .waitstop => Sys2Proof.Machine.execWaitstop s
  | .cancel dir => Sys2Proof.Machine.execCancel dir s

end Sys2Proof.Machine
end

