-- ==== Sys2Proof/Machine/Step.lean ====
section
/-! DEFINITION. One step of the machine: one atomic step of HOST or of TIMER, or a hardware reset (00_scope.md R5,
R9; 20_memory.md R59). -/

namespace Sys2Proof.Machine

/-- One step: the agent `arbitrate` names moves; a state in which none can is stuck (70_reset_and_hazards.md R234). -/
def step (s : State) : Host.Outcome State Fault Refusal :=
  match arbitrate s with
  | .none => .fault .quiescent
  | .timer t => exec .tick t
  | .input e t =>
    match fetch e with
    | .instr i => exec i t
    | .reset => .next (hardwareReset t)
    | .refused r => .refused r

/-- The state in which the very next step runs the instruction of a table row's bits: HOST has its transaction to
issue first, and, where TIMER could move too, the choice is HOST's. A row of no bits is TICK: RUNNING is set, which
is all a TICK needs, and the choice is TIMER's (log 14). -/
def State.withFetchWord (s : State) (nbits w : Nat) : State :=
  if nbits = 0 then
    { s with
      block := { s.block with running := true }
      schedule := if s.inputs.isEmpty then s.schedule else .timer :: s.schedule }
  else
    { s with
      inputs := .access (tableAccess nbits w) :: s.inputs
      schedule := if s.block.running then .host :: s.schedule else s.schedule }

end Sys2Proof.Machine
end

