-- ==== Sys2Proof/Machine/Implementation.lean ====
section
/-! DEFINITION. What an implementation does where a model refuses (the column Implementation of 20_memory.md R54,
30_encoding.md R85 and 60_exceptions.md R181). The machine's step is the model's; this one is here so that the two
can be compared. -/

namespace Sys2Proof.Machine

/-- A rejected access in an implementation: a write is ignored and changes no state; a read returns 0 and changes no
state (20_memory.md R54, 30_encoding.md R85). -/
def ignoreAccess (a : Access) (s : State) : State :=
  match a with
  | .read _ _ => s.returning 0#32
  | .write _ _ => s

/-- One step of an implementation: the model's step, but for accesses the decoder rejects. -/
def implementationStep (s : State) : Host.Outcome State Fault Refusal :=
  match arbitrate s with
  | .none => .fault .quiescent
  | .timer t => exec .tick t
  | .input e t =>
    match fetch e, e with
    | .instr i, _ => exec i t
    | .reset, _ => .next (hardwareReset t)
    | .refused _, .access a => .next (ignoreAccess a t)
    | .refused r, _ => .refused r

end Sys2Proof.Machine
end

