-- ==== Sys2Proof/Safety.lean ====
section
/-! DEFINITION. The terms claims are stated in: runs, the invariants of every reachable state (10_state.md section 4),
quiescence and its observation (70_reset_and_hazards.md R234), and the ramp of a move (41_tick_fsm.md section 5). -/

namespace Sys2Proof.Machine

/-! ## Runs -/

/-- The next state of an outcome, if it has one. -/
def nextState? : Host.Outcome State Fault Refusal → Option State
  | .next s => some s
  | .fault _ => none
  | .refused _ => none

/-- `n` steps of the machine, none if one of them is stuck or refused. -/
def run : Nat → State → Option State
  | 0, s => some s
  | n + 1, s => (nextState? (step s)).bind (run n)

/-- TIMER takes the step from this state. -/
def TimerMoves (s : State) : Prop := ∃ t, arbitrate s = .timer t

/-- Where the block has an input to take, it is taken now: TIMER cannot move, or the schedule gives HOST the turn, or
the schedule is empty and the free choice falls to HOST (60_exceptions.md R185; log 1). -/
abbrev HostHasTheTurn (s : State) : Prop :=
  s.block.running = false ∨ (∃ later, s.schedule = .host :: later) ∨
    (s.schedule = [] ∧ Config.timerFirst s.choices = false)

/-- The run from this state is weakly fair: each of its states with RUNNING = 1 is followed by a TICK, unless RUNNING
becomes 0 first (70_reset_and_hazards.md R235; a hardware reset can make it so as a host write can, R222).
(A run refused before either has no end state and is not called fair.) -/
def WeaklyFair (s : State) : Prop :=
  ∀ k t, run k s = some t → t.block.running = true →
    ∃ j u, run j t = some u ∧ (TimerMoves u ∨ u.block.running = false)

/-- No step of the run from this state is refused. -/
def NeverRefused (s : State) : Prop := ∀ k t r, run k s = some t → step t ≠ .refused r

/-- The steps of a move command, CANCEL's being 0 (40_host_commands.md section 2, 30_encoding.md R89). -/
def moveSteps : Instr → Option Count
  | .movs s _ => some s
  | .rotc s _ => some s
  | .rotw s _ _ => some s
  | .cancel _ => some 0#16
  | .init _ => none
  | .rdstat => none
  | .rdrem => none
  | .rdtaken => none
  | .rdper => none
  | .rdhalf => none
  | .tick => none
  | .waitstop => none

/-- A command: INIT or a move command, what HOST writes to CMD (40_host_commands.md sections 1 and 2). -/
abbrev IsCommand (i : Instr) : Prop := (∃ m, i = .init m) ∨ ∃ n, moveSteps i = some n

/-! ## Invariants of every reachable state (10_state.md R35 to R41) -/

/-- R35: STEPS_REMAINING > 0 implies RUNNING = 1. -/
abbrev StepsLeftOnlyWhileRunning (b : Block) : Prop := b.stepsRemaining ≠ 0#16 → b.running = true

/-- R36: RUNNING = 1 and STEPS_REMAINING = 0 together imply PULSE_PHASE = High. -/
abbrev LastStepIsHigh (b : Block) : Prop :=
  b.running = true → b.stepsRemaining = 0#16 → b.pulsePhase = .high

/-- R37: each pulse line is PULSE_PHASE AND its bit of PHASE_MASK. -/
abbrev LinesFollowPhase (b : Block) : Prop :=
  b.pulseL = (b.pulsePhase.bit && b.phaseMask.getLsbD 0) ∧ b.pulseR = (b.pulsePhase.bit && b.phaseMask.getLsbD 1)

/-- R38: RAMP_STAGE is at most N - 1. -/
abbrev StageInTable (c : Config) (b : Block) : Prop := b.rampStage.toNat < c.n

/-- R39: RUNNING = 1 implies PHASE_MASK != 0b00. -/
abbrev RunningHasMask (b : Block) : Prop := b.running = true → b.phaseMask ≠ 0b00#2

/-- What R40 says of the registers alone: the two counts add up to a 16-bit TARGET. -/
abbrev CountsFitTarget (b : Block) : Prop := b.stepsTaken.toNat + b.stepsRemaining.toNat ≤ 65535

/-- R41: PERIOD is an entry of the table, and HALF_PERIOD is PERIOD div 2. -/
abbrev PeriodFromTable (c : Config) (b : Block) : Prop :=
  (∃ j < c.n, b.period = c.entry j) ∧ b.halfPeriod.toNat = b.period.toNat / 2

/-- The invariants of 10_state.md section 4, together. -/
structure Invariants (s : State) : Prop where
  stepsLeftOnlyWhileRunning : StepsLeftOnlyWhileRunning s.block
  lastStepIsHigh            : LastStepIsHigh s.block
  linesFollowPhase          : LinesFollowPhase s.block
  stageInTable              : StageInTable s.config s.block
  runningHasMask            : RunningHasMask s.block
  countsFitTarget           : CountsFitTarget s.block
  periodFromTable           : PeriodFromTable s.config s.block

/-! ## The end of a run (70_reset_and_hazards.md R233, R234) -/

/-- Quiescent: RUNNING = 0 and HOST has no transaction left to issue (70_reset_and_hazards.md R234). R234 does not say
how a hardware reset still to come counts, a reset being no agent's step; that a state with one left in `inputs` is not
quiescent, and steps, is the MODEL's choice (DESIGN CHOICE, log 11). -/
abbrev Quiescent (s : State) : Prop := s.block.running = false ∧ s.inputs = []

/-- The values of the four output lines. -/
structure Lines where
  pulseL : Bool
  pulseR : Bool
  dirL   : Bool
  dirR   : Bool
deriving DecidableEq, Repr

/-- The output lines of a block. -/
def Block.lines (b : Block) : Lines := ⟨b.pulseL, b.pulseR, b.dirL, b.dirR⟩

/-- The history of output-line values over up to `n` steps, one entry per atomic step (R234); that a hardware reset,
which is no agent's step, has its entry too is the MODEL's choice (DESIGN CHOICE, log 11). -/
def lineHistory : Nat → State → List Lines
  | 0, _ => []
  | n + 1, s =>
    match step s with
    | .next t => t.block.lines :: lineHistory n t
    | .fault _ => []
    | .refused _ => []

/-- The rising edges of a line, from its value before the history on. -/
def risingEdges : Bool → List Bool → Nat
  | _, [] => 0
  | before, v :: rest => (if !before && v then 1 else 0) + risingEdges v rest

/-- The clock units of `n` successive TICKs: the interval before a TICK is the PERIOD it finds (R233). -/
def tickTime : Nat → State → Nat
  | 0, _ => 0
  | n + 1, s =>
    match step s with
    | .next t => s.block.period.toNat + tickTime n t
    | .fault _ => 0
    | .refused _ => 0

/-- The TICKs a running block takes until the stop stage has run (41_tick_fsm.md R149, with one more where the pulse
is High). -/
def ticksToStop (b : Block) : Nat :=
  if b.stepsRemaining = 0#16 then 1
  else 2 * b.stepsRemaining.toNat + (if b.pulsePhase = .high then 1 else 0)

/-! ## The ramp of a move of s steps (41_tick_fsm.md section 5) -/

/-- stage(k) = min(min(k, s - k) div RAMP_INTERVAL, N - 1). -/
def moveStage (c : Config) (s k : Nat) : Nat := min (min k (s - k) / c.interval) (c.n - 1)

/-- The period of step k: RAMP_TABLE[stage(k)] (R148). -/
def movePeriod (c : Config) (s k : Nat) : Word := c.entry (moveStage c s k)

/-- The parts of a move (R154). -/
inductive ProfilePhase
  | acceleration
  | cruise
  | deceleration
deriving DecidableEq, Repr

/-- The part step k of a move of s steps lies in (R154). -/
def profilePhase (c : Config) (s k : Nat) : ProfilePhase :=
  if c.duration ≤ min k (s - k) then .cruise
  else if k < s - k then .acceleration
  else .deceleration

end Sys2Proof.Machine
end

