-- ==== Sys2Proof/Certificates/Slice0/Obligations.lean ====
section
/-! DEFINITION. The statements for the provers, from the numbered rules of spec/. Each docstring names the rule or the
section it formalises. -/

open Sys2Proof Sys2Proof.Machine

/-! ## Encoding and decoding (30_encoding.md, 20_memory.md) -/

/-- R87: the four encoders as sums of their fields, Decode(enc(c)) = c, and the encoding examples. -/
def Obligations.DecodeInvertsTheEncoder : Prop :=
  (∀ m, ∃ w, encodeWord (.init m) = some w ∧ w.toNat = 0x00010000 + m.bit.toNat * 2 ^ 22 ∧
    decodeWord w = some (.init m)) ∧
  (∀ s d, ∃ w, encodeWord (.movs s d) = some w ∧ w.toNat = 0x00020000 + d.bit.toNat * 2 ^ 20 + s.toNat ∧
    decodeWord w = some (.movs s d)) ∧
  (∀ s d, ∃ w, encodeWord (.rotc s d) = some w ∧ w.toNat = 0x00030000 + d.bit.toNat * 2 ^ 20 + s.toNat ∧
    decodeWord w = some (.rotc s d)) ∧
  (∀ s v d, ∃ w, encodeWord (.rotw s v d) = some w ∧
    w.toNat = 0x00040000 + v.bit.toNat * 2 ^ 21 + d.bit.toNat * 2 ^ 20 + s.toNat ∧
    decodeWord w = some (.rotw s v d)) ∧
  encodeWord (.init .half) = some 0x00010000#32 ∧ encodeWord (.init .full) = some 0x00410000#32 ∧
  encodeWord (.movs 0#16 .fwd) = some 0x00020000#32 ∧ encodeWord (.movs 7#16 .fwd) = some 0x00020007#32 ∧
  encodeWord (.movs 20#16 .bwd) = some 0x00120014#32 ∧ encodeWord (.rotc 1000#16 .ccw) = some 0x001303E8#32 ∧
  encodeWord (.rotw 3#16 .left .cw) = some 0x00040003#32 ∧
  encodeWord (.rotw 65535#16 .right .ccw) = some 0x0034FFFF#32

/-- 30_encoding.md sections 3 and 4: the transaction of every instruction that has words of its own decodes to it;
WAITSTOP's read is RDSTAT's, CANCEL's word is MOVS #0's, and TICK has no transaction. -/
def Obligations.TransactionsDecodeToTheirInstruction : Prop :=
  (∀ i, i.hasOwnWord = true → ∃ a, encode i = some a ∧ decodeAccess a = .instr i) ∧
  (∀ d, ∃ a, encode (.cancel d) = some a ∧ decodeAccess a = .instr (.movs 0#16 d)) ∧
  (∃ a, encode .waitstop = some a ∧ decodeAccess a = .instr .rdstat) ∧
  encode .tick = none

/-- R86: the decoder by mask 0xFF8F0000 and its four matches; every other word is reserved. -/
def Obligations.DecodeFollowsTheMatches : Prop :=
  ∀ w : Word,
    decodeWord w =
      if w &&& 0xFF8F0000#32 = 0x00010000#32 then some (.init (if w.getLsbD 22 then .full else .half))
      else if w &&& 0xFF8F0000#32 = 0x00020000#32 then
        some (.movs (BitVec.ofNat 16 (w.toNat % 65536)) (if w.getLsbD 20 then .bwd else .fwd))
      else if w &&& 0xFF8F0000#32 = 0x00030000#32 then
        some (.rotc (BitVec.ofNat 16 (w.toNat % 65536)) (if w.getLsbD 20 then .ccw else .cw))
      else if w &&& 0xFF8F0000#32 = 0x00040000#32 then
        some (.rotw (BitVec.ofNat 16 (w.toNat % 65536)) (if w.getLsbD 21 then .right else .left)
          (if w.getLsbD 20 then .ccw else .cw))
      else none

/-- 30_encoding.md section 3, the model's verdict on a reserved word: a word is reserved exactly when a bit of
w[31:23] or w[19] is 1 or OP is 0, 5, 6 or 7; no other full write is rejected so, and every step that takes such a
write, with RUNNING = 0 or 1, is refused. (Whose turn it is, is the model's: log 1.) -/
def Obligations.ReservedWordsAreRefused : Prop :=
  ∀ w : Word,
    (decodeAccess (.write 0x00#5 (wordBytes w)) = .rejected .reservedCommand ↔
      w.toNat / 2 ^ 23 ≠ 0 ∨ w.getLsbD 19 = true ∨
        w.toNat / 2 ^ 16 % 8 = 0 ∨ w.toNat / 2 ^ 16 % 8 = 5 ∨ w.toNat / 2 ^ 16 % 8 = 6 ∨
        w.toNat / 2 ^ 16 % 8 = 7) ∧
    ∀ s rest, s.inputs = .access (.write 0x00#5 (wordBytes w)) :: rest → HostHasTheTurn s →
      decodeWord w = none → step s = .refused .reservedCommand

/-- R84: two words that differ only in fields their command ignores decode alike. -/
def Obligations.IgnoredFieldsHaveNoEffect : Prop :=
  ∀ w v : Word,
    (w &&& 0xFF8F0000#32 = 0x00010000#32 → w &&& 0xFFCF0000#32 = v &&& 0xFFCF0000#32 →
      decodeWord v = decodeWord w ∧ (decodeWord v).isSome = true) ∧
    (w &&& 0xFF8F0000#32 = 0x00020000#32 ∨ w &&& 0xFF8F0000#32 = 0x00030000#32 →
      w &&& 0xFF9FFFFF#32 = v &&& 0xFF9FFFFF#32 → decodeWord v = decodeWord w ∧ (decodeWord v).isSome = true) ∧
    (w &&& 0xFF8F0000#32 = 0x00040000#32 → w &&& 0xFFBFFFFF#32 = v &&& 0xFFBFFFFF#32 →
      decodeWord v = decodeWord w ∧ (decodeWord v).isSome = true)

/-- 95_test_vectors.md section 3: re-encoding the decode of a word gives the word with its ignored fields cleared. -/
def Obligations.ReencodingClearsIgnoredFields : Prop :=
  ∀ (w : Word) (i : Instr), decodeWord w = some i →
    encodeWord i = some (w &&& (match i with
      | .init _ => 0xFFCF0000#32
      | .rotw _ _ _ => 0xFFBFFFFF#32
      | _ => 0xFF9FFFFF#32))

/-- 20_memory.md section 2 (the model's column of R54): an access is an instruction exactly when it is one of the
five 32-bit reads or a 32-bit write at 0x00 of a word that is not reserved; it is refused as unadmitted exactly when
it is neither such a read nor a 32-bit write at 0x00. The second clause is the MODEL's reading (DEDUCED, log 7): R54
lists the write of a reserved word among the accesses refused as unadmitted, and R85 and R181 give it the name
reserved_command, which the model follows. -/
def Obligations.AdmittedAccessesExactly : Prop :=
  ∀ a : Access,
    ((∃ i, decodeAccess a = .instr i) ↔
      (∃ o, a = .read o 4 ∧ (o = 0x04#5 ∨ o = 0x08#5 ∨ o = 0x0C#5 ∨ o = 0x10#5 ∨ o = 0x14#5)) ∨
      (∃ w, a = .write 0x00#5 (wordBytes w) ∧ (decodeWord w).isSome = true)) ∧
    (decodeAccess a = .rejected .unadmittedAccess ↔
      (∀ o, a = .read o 4 → ¬(o = 0x04#5 ∨ o = 0x08#5 ∨ o = 0x0C#5 ∨ o = 0x10#5 ∨ o = 0x14#5)) ∧
      (∀ w, a ≠ .write 0x00#5 (wordBytes w)))

/-- R53: little-endian, for the command word written and for every readable register in the window. -/
def Obligations.BytesAreLittleEndian : Prop :=
  (∀ b0 b1 b2 b3 : Byte, ∃ w : Word,
    w.toNat = b0.toNat + 256 * b1.toNat + 65536 * b2.toNat + 16777216 * b3.toNat ∧
    decodeAccess (.write 0x00#5 [b0, b1, b2, b3]) = decodeCommand w) ∧
  ∀ (c : Config) (b : Block) (r : ReadRegister) (k : Nat), k < 4 →
    windowByte c b (c.params.base + r.offset.toNat + k) =
      some (BitVec.ofNat 8 ((b.readValue c r).toNat / 2 ^ (8 * k)))

/-- 30_encoding.md section 4: the assembler accepts exactly the well-formed lines, each keyword gives the operand of
its name and a literal its value, and what HOST issues for a line is fetched as the instruction the line names. For
the lines WAITSTOP and CANCEL that is the MODEL's choice (DESIGN CHOICE, log 9): R89 expands CANCEL to the write of
MOVS #0 and WAITSTOP to reads, and the model issues each as an input of its own. -/
def Obligations.AssemblerAgreesWithTheDecoder : Prop :=
  (∀ n, n < 65536 →
    Line.instr? (.movs n .fwd) = some (.movs (BitVec.ofNat 16 n) .fwd) ∧
    Line.instr? (.movs n .bwd) = some (.movs (BitVec.ofNat 16 n) .bwd) ∧
    Line.instr? (.rotc n .cw) = some (.rotc (BitVec.ofNat 16 n) .cw) ∧
    Line.instr? (.rotc n .ccw) = some (.rotc (BitVec.ofNat 16 n) .ccw) ∧
    Line.instr? (.rotw n .left .cw) = some (.rotw (BitVec.ofNat 16 n) .left .cw) ∧
    Line.instr? (.rotw n .left .ccw) = some (.rotw (BitVec.ofNat 16 n) .left .ccw) ∧
    Line.instr? (.rotw n .right .cw) = some (.rotw (BitVec.ofNat 16 n) .right .cw) ∧
    Line.instr? (.rotw n .right .ccw) = some (.rotw (BitVec.ofNat 16 n) .right .ccw)) ∧
  (Line.instr? (.init .half) = some (.init .half) ∧ Line.instr? (.init .full) = some (.init .full) ∧
    Line.instr? (.cancel .fwd) = some (.cancel .fwd) ∧ Line.instr? (.cancel .bwd) = some (.cancel .bwd) ∧
    Line.instr? .rdstat = some .rdstat ∧ Line.instr? .rdrem = some .rdrem ∧
    Line.instr? .rdtaken = some .rdtaken ∧ Line.instr? .rdper = some .rdper ∧
    Line.instr? .rdhalf = some .rdhalf ∧ Line.instr? .waitstop = some .waitstop) ∧
  ∀ l : Line,
    ((Line.assemble l).isSome = true ↔ l.wellFormed = true) ∧
    (∀ i e, l.instr? = some i → Line.assemble l = some e → fetch e = .instr i) ∧
    (∀ n e, l = .cmd n → Line.assemble l = some e →
      e = .access (.write 0x00#5 (wordBytes (BitVec.ofNat 32 n))))

/-- 30_encoding.md section 3, 20_memory.md section 1: a few words and offsets, written out from the encoding. -/
def Obligations.SampleWordsDecode : Prop :=
  decodeWord 0x00710000#32 = some (.init .full) ∧ decodeWord 0x0012FFFF#32 = some (.movs 65535#16 .bwd) ∧
  decodeWord 0x001303E8#32 = some (.rotc 1000#16 .ccw) ∧
  decodeWord 0x00340002#32 = some (.rotw 2#16 .right .ccw) ∧ decodeWord 0x000A0007#32 = none ∧
  decodeAccess (.read 0x04#5 4) = .instr .rdstat ∧ decodeAccess (.read 0x08#5 4) = .instr .rdrem ∧
  decodeAccess (.read 0x0C#5 4) = .instr .rdtaken ∧ decodeAccess (.read 0x10#5 4) = .instr .rdper ∧
  decodeAccess (.read 0x14#5 4) = .instr .rdhalf ∧ decodeAccess (.read 0x18#5 4) = .rejected .unadmittedAccess

/-! ## The step (20_memory.md section 4, 60_exceptions.md section 3, 70_reset_and_hazards.md) -/

/-- 20_memory.md section 4: when the next input is an instruction's, and TIMER cannot move or the schedule gives the
turn to HOST, the step takes the input off and is exec of that instruction. (The schedule is the model's: log 1.) -/
def Obligations.StepRunsTheDecodedInstruction : Prop :=
  ∀ (s : State) (e : Input) (rest : List Input) (i : Instr), s.inputs = e :: rest → fetch e = .instr i →
    (s.block.running = false → step s = exec i { s with inputs := rest }) ∧
    (∀ later, s.block.running = true → s.schedule = .host :: later →
      step s = exec i { s with inputs := rest, schedule := later }) ∧
    (∀ a, e = .access a → decodeAccess a = .instr i)

/-- 41_tick_fsm.md section 1, 60_exceptions.md section 3: while RUNNING = 1 a TICK may be next, whether HOST has
something to issue or not; where the model's schedule is empty (log 1), the step is one of the two, whatever the input
is: an instruction's, a hardware reset (log 11), or an access to refuse. -/
def Obligations.EitherAgentMayMove : Prop :=
  ∀ s : State, s.block.running = true →
    (s.inputs = [] → step s = exec .tick s) ∧
    (∀ e rest later, s.inputs = e :: rest → s.schedule = .timer :: later →
      step s = exec .tick { s with schedule := later }) ∧
    (∀ e rest i, s.inputs = e :: rest → s.schedule = [] → fetch e = .instr i →
      step s = exec .tick { s with choices := s.choices + 1 } ∨
      step s = exec i { s with inputs := rest, choices := s.choices + 1 }) ∧
    (∀ rest, s.inputs = .reset :: rest → s.schedule = [] →
      step s = exec .tick { s with choices := s.choices + 1 } ∨
      step s = .next { s with
        block := (State.resetUnder s.config).block, inputs := rest, choices := s.choices + 1 }) ∧
    (∀ e rest r, s.inputs = e :: rest → s.schedule = [] → fetch e = .refused r →
      step s = exec .tick { s with choices := s.choices + 1 } ∨ step s = .refused r)

/-- 70_reset_and_hazards.md section 5, 41_tick_fsm.md section 1: a step is stuck exactly in a quiescent state. That a
state with a hardware reset left in `inputs` is not quiescent, and steps, is the MODEL's choice (DESIGN CHOICE, log 11):
section 5 speaks of HOST's transactions only. -/
def Obligations.StuckExactlyWhenQuiescent : Prop :=
  ∀ s : State,
    ((∃ f, step s = .fault f) ↔ s.block.running = false ∧ s.inputs = []) ∧
    (∀ f, step s = .fault f → f = .quiescent)

/-- 60_exceptions.md section 1: the steps refused are exactly those that take an access the decoder rejects, with
RUNNING = 0 or 1, and the refusal has the rejection's name. (Whose turn it is, is the model's: log 1.) -/
def Obligations.RejectedAccessesAreRefused : Prop :=
  (∀ (s : State) (r : Refusal), step s = .refused r →
    ∃ a rest, s.inputs = .access a :: rest ∧ HostHasTheTurn s ∧
      ((r = .reservedCommand ∧ decodeAccess a = .rejected .reservedCommand) ∨
       (r = .unadmittedAccess ∧ decodeAccess a = .rejected .unadmittedAccess))) ∧
  ∀ (s : State) (a : Access) (rest : List Input), s.inputs = .access a :: rest → HostHasTheTurn s →
    (decodeAccess a = .rejected .reservedCommand → step s = .refused .reservedCommand) ∧
    (decodeAccess a = .rejected .unadmittedAccess → step s = .refused .unadmittedAccess)

/-- 20_memory.md section 2, 60_exceptions.md section 1 (the implementation's column): an implementation takes every step
the model takes, refuses nothing, and where the model refuses it changes no register and returns at most a 0. -/
def Obligations.ImplementationIgnoresWhatTheModelRefuses : Prop :=
  (∀ s t : State, step s = .next t → implementationStep s = .next t) ∧
  (∀ (s : State) (r : Refusal), implementationStep s ≠ .refused r) ∧
  (∀ (s : State) (r : Refusal), step s = .refused r → ∃ t, implementationStep s = .next t ∧
    t.block = s.block ∧ t.config = s.config ∧
    (∀ o width rest, s.inputs = .access (.read o width) :: rest → t.readLog = 0#32 :: s.readLog) ∧
    (∀ o data rest, s.inputs = .access (.write o data) :: rest → t.readLog = s.readLog))

/-- The step of a state in which a table row's bits are placed runs the instruction they decode to, and a row of no
bits is TICK: the MODEL's convention (log 14), resting on 30_encoding.md sections 4 and 5. -/
def Obligations.PlacedWordRunsNext : Prop :=
  (∀ (s : State) (nbits w : Nat) (i : Instr), nbits ≠ 0 → decodeTableWord nbits w = some i →
    step (s.withFetchWord nbits w) = exec i s) ∧
  ∀ (s : State) (w : Nat), decodeTableWord 0 w = some .tick ∧
    step (s.withFetchWord 0 w) = exec .tick { s with block := { s.block with running := true } }

/-- R7: no step writes the configuration. -/
def Obligations.ConfigurationNeverChanges : Prop :=
  ∀ s t : State, step s = .next t → t.config = s.config

/-! ## Reset and power-on (00_scope.md R6, 70_reset_and_hazards.md section 1) -/

/-- R220: every register after reset, under every configuration, the hardware's among them; the same after any
hardware reset; and what INIT(HALF) changes of it. -/
def Obligations.ResetValues : Prop :=
  (∃ c, State.reset = State.resetUnder c) ∧
  (∀ s : State, (hardwareReset s).block = (State.resetUnder s.config).block) ∧
  ∀ c : Config,
    (State.resetUnder c).config = c ∧
    (State.resetUnder c).block =
      { stepsRemaining := 0#16, stepsTaken := 0#16, rampStage := 0#8, phaseMask := 0b00#2, pulsePhase := .low,
        running := false, period := BitVec.ofNat 32 (c.params.rampTable.getD 0 0),
        halfPeriod := BitVec.ofNat 32 (c.params.rampTable.getD 0 0 / 2), mode := .half,
        pulseL := false, pulseR := false, dirL := false, dirR := false } ∧
    exec (.init .half) (State.resetUnder c) =
      .next { State.resetUnder c with
        block := { (State.resetUnder c).block with
          dirL := c.params.initDirHalf.1, dirR := c.params.initDirHalf.2 } }

/-- R222: a hardware reset, in any state and also during a move, makes the registers those of R220; the lines are
0, and no TICK of the old move occurs after it. (When it is taken, log 1, and that what is outside the block stays,
log 11, are the model's.) -/
def Obligations.ResetEndsTheMove : Prop :=
  ∀ (s : State) (rest : List Input), s.inputs = .reset :: rest → HostHasTheTurn s →
    ∃ t, step s = .next t ∧ t.block = (State.resetUnder s.config).block ∧ t.inputs = rest ∧
      t.config = s.config ∧ t.readLog = s.readLog ∧
      t.block.pulseL = false ∧ t.block.pulseR = false ∧ t.block.dirL = false ∧ t.block.dirR = false ∧
      ¬ ∃ u, exec .tick t = .next u

/-- R6: parameters that keep the seven conditions power on into the reset state; all others are refused. -/
def Obligations.IllFormedConfigurationsAreRefused : Prop :=
  ∀ p : Params,
    let good :=
      (1 ≤ p.rampTable.length ∧ p.rampTable.length ≤ 256) ∧ (1 ≤ p.rampInterval ∧ p.rampInterval ≤ 65535) ∧
      p.rampDuration = p.rampTable.length * p.rampInterval ∧ (1 ≤ p.periodWidth ∧ p.periodWidth ≤ 32) ∧
      (∀ x ∈ p.rampTable, 1 ≤ x ∧ x < 2 ^ p.periodWidth) ∧ p.rampTable.Pairwise (fun x y => y ≤ x) ∧
      p.initDirHalf ≠ p.initDirFull
    (good → ∃ c, c.params = p ∧ powerOn p = .next (State.resetUnder c)) ∧
    (¬ good → powerOn p = .refused .illFormedConfiguration)

/-! ## Host commands (40_host_commands.md sections 1 and 2) -/

/-- R100: INIT in every state, register by register, and its example in CFG-A. -/
def Obligations.InitWritesEveryRegister : Prop :=
  (∀ (s : State) (m : Mode),
    exec (.init m) s = .next { s with
      block :=
        { stepsRemaining := 0#16, stepsTaken := 0#16, rampStage := 0#8, phaseMask := 0b00#2, pulsePhase := .low,
          running := false, period := BitVec.ofNat 32 (s.config.params.rampTable.getD 0 0),
          halfPeriod := BitVec.ofNat 32 (s.config.params.rampTable.getD 0 0 / 2), mode := m,
          pulseL := false, pulseR := false,
          dirL := (if m = .full then s.config.params.initDirFull else s.config.params.initDirHalf).1,
          dirR := (if m = .full then s.config.params.initDirFull else s.config.params.initDirHalf).2 } }) ∧
  ∀ s : State, s.config = Config.cfgA → ∃ t, exec (.init .full) s = .next t ∧
    t.block.status = 0x00000140#32 ∧ t.block.period = 400#32 ∧ t.block.halfPeriod = 200#32 ∧
    t.block.stepsRemaining = 0#16 ∧ t.block.stepsTaken = 0#16

/-- R101: INIT applied again changes nothing, and its result does not depend on the registers before it. -/
def Obligations.InitIsIdempotent : Prop :=
  ∀ (s : State) (m : Mode), ∃ t, exec (.init m) s = .next t ∧ exec (.init m) t = .next t ∧
    ∀ s' : State, s'.config = s.config → ∃ t', exec (.init m) s' = .next t' ∧ t'.block = t.block

/-- R106: MOVS in every state, its frame included, and its example in CFG-A. -/
def Obligations.MovsDrivesBothMotorsAlike : Prop :=
  (∀ (s : State) (n : Count) (d : Dir),
    exec (.movs n d) s = .next { s with
      block := { s.block with
        dirL := decide (d = .bwd), dirR := decide (d = .bwd), phaseMask := 0b11#2, stepsTaken := 0#16,
        stepsRemaining := n, pulsePhase := .low, pulseL := false, pulseR := false,
        running := decide (n ≠ 0#16) } }) ∧
  ∀ s : State, s.config = Config.cfgA → ∃ t u, exec (.init .half) s = .next t ∧
    exec (.movs 7#16 .fwd) t = .next u ∧ u.block.status = 0x0000000D#32 ∧ u.block.stepsRemaining = 7#16 ∧
    u.block.stepsTaken = 0#16 ∧ u.block.period = 400#32

/-- R107: ROTC in every state, its frame included, and its example in CFG-A. -/
def Obligations.RotcDrivesMotorsOppositely : Prop :=
  (∀ (s : State) (n : Count) (d : Rotation),
    exec (.rotc n d) s = .next { s with
      block := { s.block with
        dirL := decide (d = .ccw), dirR := !decide (d = .ccw), phaseMask := 0b11#2, stepsTaken := 0#16,
        stepsRemaining := n, pulsePhase := .low, pulseL := false, pulseR := false,
        running := decide (n ≠ 0#16) } }) ∧
  ∀ s : State, s.config = Config.cfgA → ∃ t u, exec (.init .half) s = .next t ∧
    exec (.rotc 1000#16 .ccw) t = .next u ∧ u.block.status = 0x0000004D#32 ∧ u.block.stepsRemaining = 1000#16

/-- R108: ROTW in every state, its frame included, and its example in CFG-A. -/
def Obligations.RotwMasksTheNamedWheel : Prop :=
  (∀ (s : State) (n : Count) (w : Wheel) (d : Rotation),
    exec (.rotw n w d) s = .next { s with
      block := { s.block with
        dirL := decide (d = .ccw), dirR := !decide (d = .ccw),
        phaseMask := if w = .left then 0b10#2 else 0b01#2, stepsTaken := 0#16,
        stepsRemaining := n, pulsePhase := .low, pulseL := false, pulseR := false,
        running := decide (n ≠ 0#16) } }) ∧
  ∀ s : State, s.config = Config.cfgA → ∃ t u, exec (.init .full) s = .next t ∧
    exec (.rotw 3#16 .left .cw) t = .next u ∧ u.block.status = 0x00000189#32

/-- 30_encoding.md section 4 and 70_reset_and_hazards.md section 3: CANCEL is MOVS #0, and it stops the block. -/
def Obligations.CancelIsMovsZero : Prop :=
  ∀ (s : State) (d : Dir),
    exec (.cancel d) s = exec (.movs 0#16 d) s ∧
    exec (.cancel d) s = .next { s with
      block := { s.block with
        dirL := decide (d = .bwd), dirR := decide (d = .bwd), phaseMask := 0b11#2, stepsTaken := 0#16,
        stepsRemaining := 0#16, pulsePhase := .low, pulseL := false, pulseR := false, running := false } }

/-- R105: every move command performs MoveCore, with a mask and direction lines that the command word alone gives;
PERIOD, HALF_PERIOD, RAMP_STAGE and MODE are not written. -/
def Obligations.MoveCommandsPerformMoveCore : Prop :=
  ∀ (i : Instr) (n : Count), moveSteps i = some n → ∃ (m : BitVec 2) (dl dr : Bool), m ≠ 0b00#2 ∧
    ∀ s : State, exec i s = .next { s with
      block := { s.block with
        dirL := dl, dirR := dr, phaseMask := m, stepsTaken := 0#16, stepsRemaining := n, pulsePhase := .low,
        pulseL := false, pulseR := false, running := decide (n ≠ 0#16) } }

/-- R109: the registers after a move command depend on the command, MODE, PERIOD, HALF_PERIOD and RAMP_STAGE alone:
two states that agree on those come out with equal registers, whatever move each was in. -/
def Obligations.PreemptionLeaksNothing : Prop :=
  ∀ (i : Instr) (n : Count) (s s' : State), moveSteps i = some n →
    s.block.mode = s'.block.mode → s.block.period = s'.block.period →
    s.block.halfPeriod = s'.block.halfPeriod → s.block.rampStage = s'.block.rampStage →
    ∃ t t', exec i s = .next t ∧ exec i s' = .next t' ∧ t.block = t'.block ∧
      t.block.stepsTaken = 0#16 ∧ t.block.stepsRemaining = n ∧ t.block.period = s.block.period

/-- R110: a move command of no steps leaves RUNNING = 0 and both pulse lines 0, no TICK follows, and the direction
lines and PHASE_MASK take the command's values. -/
def Obligations.ZeroStepMoveStops : Prop :=
  ∀ s : State,
    (∀ d : Dir, ∃ t, exec (.movs 0#16 d) s = .next t ∧ t.block.running = false ∧ t.block.stepsRemaining = 0#16 ∧
      t.block.pulseL = false ∧ t.block.pulseR = false ∧ t.block.dirL = d.bit ∧ t.block.dirR = d.bit ∧
      t.block.phaseMask = 0b11#2 ∧ ¬ ∃ u, exec .tick t = .next u) ∧
    (∀ d : Rotation, ∃ t, exec (.rotc 0#16 d) s = .next t ∧ t.block.running = false ∧
      t.block.stepsRemaining = 0#16 ∧ t.block.pulseL = false ∧ t.block.pulseR = false ∧ t.block.dirL = d.bit ∧
      t.block.dirR = (!d.bit) ∧ t.block.phaseMask = 0b11#2 ∧ ¬ ∃ u, exec .tick t = .next u) ∧
    (∀ (w : Wheel) (d : Rotation), ∃ t, exec (.rotw 0#16 w d) s = .next t ∧ t.block.running = false ∧
      t.block.stepsRemaining = 0#16 ∧ t.block.pulseL = false ∧ t.block.pulseR = false ∧ t.block.dirL = d.bit ∧
      t.block.dirR = (!d.bit) ∧ t.block.phaseMask = (if w = .left then 0b10#2 else 0b01#2) ∧
      ¬ ∃ u, exec .tick t = .next u)

/-- R111: the same move command written again restarts the move: after a TICK of the first, the second write brings
STEPS_REMAINING back to s and loses the step taken. -/
def Obligations.RepeatedMoveRestarts : Prop :=
  ∀ (i : Instr) (n : Count) (s : State), moveSteps i = some n → n ≠ 0#16 →
    ∃ t u v, exec i s = .next t ∧ exec .tick t = .next u ∧ u.block.stepsTaken = 1#16 ∧ exec i u = .next v ∧
      v.block.stepsRemaining = n ∧ v.block.stepsTaken = 0#16 ∧ v.block.running = true ∧
      v.block.pulsePhase = .low ∧ u ≠ v

/-! ## Status reads (20_memory.md R52, 40_host_commands.md section 3) -/

/-- R52: RDSTAT returns the STATUS word, each field at its place, and changes nothing else. -/
def Obligations.StatusWordLayout : Prop :=
  ∀ s : State, ∃ w : Word, exec .rdstat s = .next { s with readLog := w :: s.readLog } ∧
    w.toNat = s.block.running.toNat + 2 * (if s.block.pulsePhase = .high then 1 else 0) +
      4 * (s.block.phaseMask.getLsbD 0).toNat + 8 * (s.block.phaseMask.getLsbD 1).toNat +
      16 * s.block.pulseL.toNat + 32 * s.block.pulseR.toNat + 64 * s.block.dirL.toNat +
      128 * s.block.dirR.toNat + 256 * (if s.block.mode = .full then 1 else 0) + 65536 * s.block.rampStage.toNat

/-- R116 and R117: RDREM and RDTAKEN return the counts zero-extended, with the rules' examples. -/
def Obligations.CountReadsReturnTheCounts : Prop :=
  (∀ s : State, exec .rdrem s =
    .next { s with readLog := BitVec.ofNat 32 s.block.stepsRemaining.toNat :: s.readLog }) ∧
  (∀ s : State, exec .rdtaken s =
    .next { s with readLog := BitVec.ofNat 32 s.block.stepsTaken.toNat :: s.readLog }) ∧
  ∀ s : State, ∃ t u r q r' q', exec (.movs 7#16 .fwd) s = .next t ∧ exec .tick t = .next u ∧
    exec .rdrem t = .next r ∧ r.readLog.head? = some 7#32 ∧ exec .rdtaken t = .next q ∧
    q.readLog.head? = some 0#32 ∧ exec .rdrem u = .next r' ∧ r'.readLog.head? = some 6#32 ∧
    exec .rdtaken u = .next q' ∧ q'.readLog.head? = some 1#32

/-- R118 and R119: RDPER and RDHALF return PERIOD and HALF_PERIOD zero-extended from PERIOD_WIDTH bits. In a state
with PERIOD from the table, which every reachable state is, they are the registers themselves. -/
def Obligations.PeriodReadsReturnThePeriods : Prop :=
  (∀ s : State, exec .rdper s = .next { s with
    readLog := BitVec.ofNat 32 (s.block.period.toNat % 2 ^ s.config.params.periodWidth) :: s.readLog }) ∧
  (∀ s : State, exec .rdhalf s = .next { s with
    readLog := BitVec.ofNat 32 (s.block.halfPeriod.toNat % 2 ^ s.config.params.periodWidth) :: s.readLog }) ∧
  (∀ s : State, PeriodFromTable s.config s.block →
    exec .rdper s = .next { s with readLog := s.block.period :: s.readLog } ∧
    exec .rdhalf s = .next { s with readLog := s.block.halfPeriod :: s.readLog }) ∧
  ∀ (s : State) (m : Mode), s.config = Config.cfgA → ∃ t r q, exec (.init m) s = .next t ∧
    exec .rdper t = .next r ∧ r.readLog.head? = some 400#32 ∧ exec .rdhalf t = .next q ∧
    q.readLog.head? = some 200#32

/-- 20_memory.md section 2 (reads): the five reads change no register, and two reads with no step between them
return the same value. -/
def Obligations.ReadsHaveNoSideEffect : Prop :=
  ∀ (i : Instr) (s : State), i ∈ [Instr.rdstat, .rdrem, .rdtaken, .rdper, .rdhalf] →
    ∃ w, exec i s = .next { s with readLog := w :: s.readLog } ∧
      exec i { s with readLog := w :: s.readLog } = .next { s with readLog := w :: w :: s.readLog }

/-- 40_host_commands.md section 4: WAITSTOP reads STATUS; while RUNNING = 1 it is issued again, and it falls through
at the read that finds RUNNING = 0, where STEPS_REMAINING = 0 (10_state.md section 4). That it is issued again at the
HEAD of `inputs`, ahead of every other entry (a hardware reset or another master's transaction too), is the MODEL's
choice (DESIGN CHOICE, log 9): the spec leaves open what falls between two of its reads. -/
def Obligations.WaitstopPollsRunning : Prop :=
  ∀ s : State,
    (s.block.running = true → exec .waitstop s =
      .next { s with readLog := s.block.status :: s.readLog, inputs := .pseudo .waitstop :: s.inputs }) ∧
    (s.block.running = false → exec .waitstop s = .next { s with readLog := s.block.status :: s.readLog }) ∧
    (∀ t, Invariants s → exec .waitstop s = .next t → t.inputs = s.inputs →
      t.block.running = false ∧ t.block.stepsRemaining = 0#16)

/-! ## TICK (41_tick_fsm.md sections 1 to 4) -/

/-- R142: with STEPS_REMAINING = 0 a TICK writes RUNNING <- 0 and nothing else; in a state with the invariants that
is FINAL; and the rule's example. -/
def Obligations.TickStopsAtZero : Prop :=
  ∀ s : State, s.block.running = true → s.block.stepsRemaining = 0#16 →
    exec .tick s = .next { s with block := { s.block with running := false } } ∧
    (Invariants s → controlClass s.block = some .final) ∧
    (s.block.status = 0x0000003F#32 → ({ s.block with running := false } : Block).status = 0x0000003E#32)

/-- R143: with steps left and the pulse High, a TICK clears both lines and the phase, and nothing else; a line outside
the mask is 0 before it in a state with the invariants; and the rule's example. -/
def Obligations.TickMakesTheTrailingEdge : Prop :=
  ∀ s : State, s.block.running = true → s.block.stepsRemaining ≠ 0#16 → s.block.pulsePhase = .high →
    ∃ t, exec .tick s = .next t ∧
      t = { s with block := { s.block with pulseL := false, pulseR := false, pulsePhase := .low } } ∧
      (Invariants s → (s.block.phaseMask.getLsbD 0 = false → s.block.pulseL = false) ∧
        (s.block.phaseMask.getLsbD 1 = false → s.block.pulseR = false)) ∧
      (s.block.status = 0x0001003F#32 → t.block.status = 0x0001000D#32)

/-- R144, R145 and R146: with steps left and the pulse Low, a TICK asserts the masked lines, counts one step, and
writes the ramp stage and, below RAMP_DURATION, the period; the counts add up to a 16-bit TARGET, as they do in every
reachable state (R40). The clamp changes nothing below RAMP_DURATION; the last clauses are the rules' examples. -/
def Obligations.TickMakesTheLeadingEdge : Prop :=
  ∀ s : State, s.block.running = true → s.block.stepsRemaining ≠ 0#16 → s.block.pulsePhase = .low →
    s.block.stepsTaken.toNat + s.block.stepsRemaining.toNat ≤ 65535 →
    let p := s.config.params
    let b := min (s.block.stepsTaken.toNat + 1) (s.block.stepsRemaining.toNat - 1)
    let stage := min (b / p.rampInterval) (p.rampTable.length - 1)
    b ≤ 32767 ∧ (b < p.rampDuration → stage = b / p.rampInterval) ∧
    ∃ t, exec .tick s = .next t ∧
    (s.config = Config.cfgA → s.block.phaseMask = 0b10#2 → s.block.stepsTaken = 0#16 →
      s.block.stepsRemaining = 3#16 → t.block.pulseL = false ∧ t.block.pulseR = true ∧
        t.block.stepsRemaining = 2#16 ∧ t.block.stepsTaken = 1#16) ∧
    (s.config = Config.cfgA → s.block.stepsTaken = 6#16 → s.block.stepsRemaining = 14#16 →
      t.block.rampStage = 3#8) ∧
    (s.config = Config.cfgA → s.block.stepsTaken = 1#16 → s.block.stepsRemaining = 19#16 →
      t.block.rampStage = 1#8 ∧ t.block.period = 300#32 ∧ t.block.halfPeriod = 150#32) ∧
    (s.config = Config.cfgA → s.block.stepsTaken = 9#16 → s.block.stepsRemaining = 11#16 →
      s.block.period = 100#32 → t.block.period = 100#32) ∧
    t = { s with
      block := { s.block with
        pulseL := s.block.phaseMask.getLsbD 0
        pulseR := s.block.phaseMask.getLsbD 1
        pulsePhase := .high
        stepsRemaining := BitVec.ofNat 16 (s.block.stepsRemaining.toNat - 1)
        stepsTaken := BitVec.ofNat 16 (s.block.stepsTaken.toNat + 1)
        rampStage := BitVec.ofNat 8 stage
        period := if b < p.rampDuration then BitVec.ofNat 32 (p.rampTable.getD stage 0) else s.block.period
        halfPeriod :=
          if b < p.rampDuration then BitVec.ofNat 32 (p.rampTable.getD stage 0 / 2) else s.block.halfPeriod } }

/-- 41_tick_fsm.md sections 1 and 2: TICK completes in every state with RUNNING = 1 and has no step in any other; it
never writes the direction lines, the mask, the mode or anything outside the block. -/
def Obligations.TickRunsExactlyWhileRunning : Prop :=
  ∀ s : State,
    (s.block.running = true → ∃ t, exec .tick s = .next t ∧ t.block.dirL = s.block.dirL ∧
      t.block.dirR = s.block.dirR ∧ t.block.phaseMask = s.block.phaseMask ∧ t.block.mode = s.block.mode ∧
      t.config = s.config ∧ t.inputs = s.inputs ∧ t.schedule = s.schedule ∧ t.choices = s.choices ∧
      t.readLog = s.readLog) ∧
    (s.block.running = false → exec .tick s = .fault .timerHasNoStep)

/-- 41_tick_fsm.md section 4: where the counts fit a TARGET, no count wraps, the stage is an index of the table and
at most 255, and the period written fits PERIOD_WIDTH bits. -/
def Obligations.TickArithmeticNeverWraps : Prop :=
  ∀ s t : State, s.block.stepsTaken.toNat + s.block.stepsRemaining.toNat ≤ 65535 → exec .tick s = .next t →
    (t.block.stepsTaken = s.block.stepsTaken ∧ t.block.stepsRemaining = s.block.stepsRemaining ∨
      t.block.stepsTaken.toNat = s.block.stepsTaken.toNat + 1 ∧
      t.block.stepsRemaining.toNat + 1 = s.block.stepsRemaining.toNat ∧
      t.block.rampStage.toNat =
        min (min t.block.stepsTaken.toNat t.block.stepsRemaining.toNat / s.config.params.rampInterval)
          (s.config.params.rampTable.length - 1)) ∧
    (t.block.period = s.block.period ∨
      t.block.period.toNat = s.config.params.rampTable.getD t.block.rampStage.toNat 0 ∧
      t.block.period.toNat < 2 ^ s.config.params.periodWidth)

/-! ## Who writes what (10_state.md sections 1 and 2) -/

/-- R32: RUNNING is set only by a move command with STEPS != 0, and cleared only by a move command with STEPS = 0,
by INIT and by the stop stage of TICK; PULSE_PHASE is set only by the leading edge and cleared only by the trailing
edge, by a move command and by INIT; and each of these writers does so. -/
def Obligations.WritersOfTheFlags : Prop :=
  ∀ (i : Instr) (s t : State), exec i s = .next t →
    (s.block.running = false → t.block.running = true → ∃ n, moveSteps i = some n ∧ n ≠ 0#16) ∧
    (s.block.running = true → t.block.running = false →
      (∃ m, i = .init m) ∨ moveSteps i = some 0#16 ∨ (i = .tick ∧ s.block.stepsRemaining = 0#16)) ∧
    (s.block.pulsePhase = .low → t.block.pulsePhase = .high → i = .tick ∧ s.block.stepsRemaining ≠ 0#16) ∧
    (s.block.pulsePhase = .high → t.block.pulsePhase = .low →
      (∃ m, i = .init m) ∨ (∃ n, moveSteps i = some n) ∨ (i = .tick ∧ s.block.stepsRemaining ≠ 0#16)) ∧
    (∀ n, moveSteps i = some n → (t.block.running = true ↔ n ≠ 0#16) ∧ t.block.pulsePhase = .low) ∧
    (∀ m, i = .init m → t.block.running = false ∧ t.block.pulsePhase = .low) ∧
    (i = .tick → (t.block.running = false ↔ s.block.stepsRemaining = 0#16) ∧
      (s.block.stepsRemaining ≠ 0#16 → (t.block.pulsePhase = .high ↔ s.block.pulsePhase = .low)))

/-- 10_state.md section 1, the column Writers: MODE is INIT's; the direction lines and PHASE_MASK are INIT's and the
move commands'; PERIOD, HALF_PERIOD and RAMP_STAGE are INIT's and TICK's; no read writes a register. -/
def Obligations.WritersOfTheOtherRegisters : Prop :=
  ∀ (i : Instr) (s t : State), exec i s = .next t →
    (t.block.mode ≠ s.block.mode → ∃ m, i = .init m) ∧
    (t.block.dirL ≠ s.block.dirL ∨ t.block.dirR ≠ s.block.dirR ∨ t.block.phaseMask ≠ s.block.phaseMask →
      (∃ m, i = .init m) ∨ ∃ n, moveSteps i = some n) ∧
    (t.block.period ≠ s.block.period ∨ t.block.halfPeriod ≠ s.block.halfPeriod ∨
        t.block.rampStage ≠ s.block.rampStage → (∃ m, i = .init m) ∨ i = .tick) ∧
    (t.block ≠ s.block → (∃ m, i = .init m) ∨ (∃ n, moveSteps i = some n) ∨ i = .tick)

/-! ## Invariants (10_state.md section 4) -/

/-- 10_state.md section 4 at reset: the state after reset under every configuration has the invariants. -/
def Obligations.ResetHasTheInvariants : Prop :=
  Invariants State.reset ∧ ∀ c : Config, Invariants (State.resetUnder c)

/-- 10_state.md section 4: "Every reachable state satisfies these, from reset onward under any interleaving": every
step, of either agent or a hardware reset, keeps R35 to R39 and R41 and the bound of R40. -/
def Obligations.EveryStepKeepsTheInvariants : Prop :=
  ∀ s t : State, Invariants s → step s = .next t → Invariants t

/-- 10_state.md section 4, the ghost TARGET: a move command makes the sum of the counts its STEPS, INIT makes it 0,
and every other instruction keeps it. -/
def Obligations.CountsAddUpToTheTarget : Prop :=
  ∀ (i : Instr) (s t : State), s.block.stepsTaken.toNat + s.block.stepsRemaining.toNat ≤ 65535 →
    exec i s = .next t →
    (∀ n, moveSteps i = some n → t.block.stepsTaken.toNat + t.block.stepsRemaining.toNat = n.toNat) ∧
    (∀ m, i = .init m → t.block.stepsTaken.toNat + t.block.stepsRemaining.toNat = 0) ∧
    (moveSteps i = none → (∀ m, i ≠ .init m) → t.block.stepsTaken.toNat + t.block.stepsRemaining.toNat =
      s.block.stepsTaken.toNat + s.block.stepsRemaining.toNat)

/-- R31: a state with the invariants is in one of the four classes, and the class says what the next TICK does. -/
def Obligations.ControlClassesDecideTheTick : Prop :=
  ∀ s : State, Invariants s → ∃ k, controlClass s.block = some k ∧
    (k = .idle → s.block.running = false ∧ s.block.stepsRemaining = 0#16 ∧ ¬ ∃ t, exec .tick s = .next t) ∧
    (k = .ready → ∃ t, exec .tick s = .next t ∧ t.block.pulsePhase = .high ∧
      t.block.stepsTaken.toNat = s.block.stepsTaken.toNat + 1 ∧
      t.block.stepsRemaining.toNat + 1 = s.block.stepsRemaining.toNat) ∧
    (k = .pulse → ∃ t, exec .tick s = .next t ∧ t.block.pulsePhase = .low ∧
      t.block.stepsTaken = s.block.stepsTaken ∧ t.block.stepsRemaining = s.block.stepsRemaining ∧
      t.block.running = true) ∧
    (k = .final → ∃ t, exec .tick s = .next t ∧ t.block = { s.block with running := false })

/-- 00_scope.md section 4 (entry 0 slowest, entry N - 1 fastest): in a state with the invariants PERIOD lies between
the table's last and first entries and fits PERIOD_WIDTH bits. -/
def Obligations.PeriodStaysWithinTheTable : Prop :=
  ∀ s : State, Invariants s →
    s.config.params.rampTable.getD (s.config.params.rampTable.length - 1) 0 ≤ s.block.period.toNat ∧
    s.block.period.toNat ≤ s.config.params.rampTable.getD 0 0 ∧
    1 ≤ s.block.period.toNat ∧ s.block.period.toNat < 2 ^ s.config.params.periodWidth

/-! ## Whole moves (41_tick_fsm.md section 5): a move command, then TICKs with nothing issued in between -/

/-- R149: a move of s steps takes exactly 2s TICKs to RUNNING = 0: TICK 2k - 1 is the leading edge of step k, TICK 2k
its trailing edge for k < s, and TICK 2s the stop. For s = 0 there is no TICK. -/
def Obligations.MoveTakesTwoTicksPerStep : Prop :=
  ∀ (i : Instr) (n : Count) (s : State), moveSteps i = some n → s.inputs = [] →
    ∃ t, exec i s = .next t ∧
      (∀ k, 1 ≤ k → k ≤ n.toNat → ∃ u, run (2 * k - 1) t = some u ∧ u.block.running = true ∧
        u.block.pulsePhase = .high ∧ u.block.stepsTaken.toNat = k ∧ u.block.stepsRemaining.toNat = n.toNat - k) ∧
      (∀ k, k < n.toNat → ∃ u, run (2 * k) t = some u ∧ u.block.running = true ∧
        u.block.pulsePhase = .low ∧ u.block.stepsTaken.toNat = k ∧ u.block.stepsRemaining.toNat = n.toNat - k) ∧
      (∃ u, run (2 * n.toNat) t = some u ∧ u.block.running = false ∧ u.block.stepsRemaining = 0#16 ∧
        u.block.stepsTaken = n ∧ ¬ ∃ v, exec .tick u = .next v)

/-- R148, the period lemma: after step k, PERIOD = RAMP_TABLE[stage(k)] and RAMP_STAGE = stage(k), from any prior
state with the invariants, a stale PERIOD included. -/
def Obligations.PeriodFollowsTheStage : Prop :=
  ∀ (i : Instr) (n : Count) (s : State) (k : Nat), moveSteps i = some n → s.inputs = [] → Invariants s →
    1 ≤ k → k ≤ n.toNat →
    ∃ t u, exec i s = .next t ∧ run (2 * k - 1) t = some u ∧
      u.block.period = movePeriod s.config n.toNat k ∧ u.block.rampStage.toNat = moveStage s.config n.toNat k

/-- R150: P(k) = P(s - k) for k = 0..s, where P(0) is the PERIOD right after the command, RAMP_TABLE[0] here. -/
def Obligations.RampIsSymmetric : Prop :=
  ∀ (i : Instr) (n : Count) (s : State) (k : Nat), moveSteps i = some n → s.inputs = [] → Invariants s →
    s.block.period = s.config.entry 0 → k ≤ n.toNat →
    ∃ t u v, exec i s = .next t ∧ run (2 * k - 1) t = some u ∧
      run (2 * (n.toNat - k) - 1) t = some v ∧ u.block.period = v.block.period

/-- R151 (k = 0 being the state right after the command): step k uses the cruise entry RAMP_TABLE[N - 1] when min(k, s - k) >= RAMP_DURATION - RAMP_INTERVAL, and so
does every k in [RAMP_DURATION, s - RAMP_DURATION] when s > 2 * RAMP_DURATION. -/
def Obligations.CruisePlateau : Prop :=
  ∀ (i : Instr) (n : Count) (s : State) (k : Nat), moveSteps i = some n → s.inputs = [] → Invariants s →
    k ≤ n.toNat →
    (s.config.params.rampDuration - s.config.params.rampInterval ≤ min k (n.toNat - k) ∨
      2 * s.config.params.rampDuration < n.toNat ∧ s.config.params.rampDuration ≤ k ∧
        k ≤ n.toNat - s.config.params.rampDuration) →
    ∃ t u, exec i s = .next t ∧ run (2 * k - 1) t = some u ∧
      u.block.period.toNat = s.config.params.rampTable.getD (s.config.params.rampTable.length - 1) 0

/-- 41_tick_fsm.md section 5 (the trapezoidal profile): from step 2 on the period does not grow in the acceleration
part, is the cruise entry in the cruise part, and does not shrink past the midpoint of the deceleration part. -/
def Obligations.ProfileIsTrapezoidal : Prop :=
  ∀ (i : Instr) (n : Count) (s : State) (k : Nat), moveSteps i = some n → s.inputs = [] → Invariants s →
    2 ≤ k → k ≤ n.toNat →
    ∃ t u v, exec i s = .next t ∧ run (2 * (k - 1) - 1) t = some u ∧ run (2 * k - 1) t = some v ∧
      (profilePhase s.config n.toNat k = .acceleration → v.block.period.toNat ≤ u.block.period.toNat) ∧
      (profilePhase s.config n.toNat k = .cruise →
        v.block.period.toNat = s.config.params.rampTable.getD (s.config.params.rampTable.length - 1) 0) ∧
      (profilePhase s.config n.toNat k = .deceleration → n.toNat - k < k →
        u.block.period.toNat ≤ v.block.period.toNat)

/-- R152: during a ROTW the named wheel's line is 0 after the command and after every TICK; the other line is 1 after
each odd TICK, 0 after each even TICK before the last, and stays 1 after the stop TICK. -/
def Obligations.StationaryWheelNeverPulses : Prop :=
  ∀ (n : Count) (d : Rotation) (s : State) (j : Nat), s.inputs = [] → j ≤ 2 * n.toNat →
    (∃ t u, exec (.rotw n .left d) s = .next t ∧ run j t = some u ∧ u.block.pulseL = false ∧
      (u.block.pulseR = true ↔ j % 2 = 1 ∨ (j = 2 * n.toNat ∧ n ≠ 0#16))) ∧
    (∃ t u, exec (.rotw n .right d) s = .next t ∧ run j t = some u ∧ u.block.pulseR = false ∧
      (u.block.pulseL = true ↔ j % 2 = 1 ∨ (j = 2 * n.toNat ∧ n ≠ 0#16)))

/-- R153 and 95_test_vectors.md P2: a completed move of at least one step leaves the pulse High and the masked lines
at 1, the slowest period and stage 0; every register is fixed by the command, MODE and the configuration, whatever
came before. -/
def Obligations.CompletedMoveForgetsThePast : Prop :=
  ∀ (i : Instr) (n : Count) (s : State), moveSteps i = some n → n ≠ 0#16 → s.inputs = [] →
    ∃ t u, exec i s = .next t ∧ run (2 * n.toNat) t = some u ∧
      u = { t with
        block :=
          { stepsRemaining := 0#16, stepsTaken := n, rampStage := 0#8, phaseMask := t.block.phaseMask,
            pulsePhase := .high, running := false,
            period := BitVec.ofNat 32 (s.config.params.rampTable.getD 0 0),
            halfPeriod := BitVec.ofNat 32 (s.config.params.rampTable.getD 0 0 / 2), mode := s.block.mode,
            pulseL := t.block.phaseMask.getLsbD 0, pulseR := t.block.phaseMask.getLsbD 1,
            dirL := t.block.dirL, dirR := t.block.dirR } }

/-- 70_reset_and_hazards.md section 3 (pulse lines at rest): a whole move of s steps makes exactly s rising edges on
the line of each motor in the mask, and none on the other's. -/
def Obligations.RisingEdgesCountTheSteps : Prop :=
  ∀ (i : Instr) (n : Count) (s : State), moveSteps i = some n → s.inputs = [] →
    ∃ t, exec i s = .next t ∧ (lineHistory (2 * n.toNat) t).length = 2 * n.toNat ∧
      risingEdges t.block.pulseL ((lineHistory (2 * n.toNat) t).map Lines.pulseL) =
        (if t.block.phaseMask.getLsbD 0 then n.toNat else 0) ∧
      risingEdges t.block.pulseR ((lineHistory (2 * n.toNat) t).map Lines.pulseR) =
        (if t.block.phaseMask.getLsbD 1 then n.toNat else 0)

/-- 70_reset_and_hazards.md section 4: the duration of a move of s >= 1 steps, from command to stop, is
P(0) + 2 * (P(1) + ... + P(s-1)) + P(s) clock units. -/
def Obligations.MoveDuration : Prop :=
  ∀ (i : Instr) (n : Count) (s : State), moveSteps i = some n → n ≠ 0#16 → s.inputs = [] → Invariants s →
    ∃ t, exec i s = .next t ∧
      tickTime (2 * n.toNat) t =
        s.block.period.toNat +
          2 * ((List.range (n.toNat - 1)).map fun k => (movePeriod s.config n.toNat (k + 1)).toNat).sum +
          (movePeriod s.config n.toNat n.toNat).toNat

/-! ## HOST and TIMER together -/

/-- 40_host_commands.md section 4, 70_reset_and_hazards.md section 5: however the schedule interleaves HOST's polling
with TIMER, WAITSTOP falls through once TIMER has had the turns the move needs; where RUNNING = 0 it makes one read.
(The schedule is the model's way to write an interleaving: log 1; WAITSTOP as an input put back while it polls is the
model's too: DESIGN CHOICE, log 9.) -/
def Obligations.WaitstopEndsOnceTimerHasItsTurns : Prop :=
  ∀ (s : State), s.inputs = [.pseudo .waitstop] →
    (s.block.running = false → ∃ t, run 1 s = some t ∧ t.inputs = [] ∧ t.block = s.block) ∧
    (∀ turns later : List Agent, s.block.running = true → s.schedule = turns ++ .timer :: later →
      turns.count .timer + 1 = ticksToStop s.block →
      ∃ t, run (turns.length + 2) s = some t ∧ t.block.running = false ∧ t.inputs = [] ∧ t.schedule = later ∧
        t.readLog.length = s.readLog.length + turns.count .host + 1)

/-- 70_reset_and_hazards.md section 5: a run that is not refused is weakly fair to TIMER: a state with RUNNING = 1 is
followed by a TICK unless RUNNING becomes 0 first. (It rests on the fairness of the free choices: log 1.) -/
def Obligations.RunsAreWeaklyFair : Prop :=
  ∀ s : State, NeverRefused s → WeaklyFair s

/-- 70_reset_and_hazards.md section 5, 40_host_commands.md section 4: on every weakly fair run WAITSTOP terminates, and
a move during which HOST writes no command completes in finitely many steps, every step taken. (That nothing but
TICKs falls between the reads of one WAITSTOP is the model's: log 9.) -/
def Obligations.FairRunsEndTheMove : Prop :=
  (∀ (s : State) (rest : List Input), s.inputs = .pseudo .waitstop :: rest → WeaklyFair s →
    ∃ k t, run k s = some t ∧ t.inputs = rest ∧ t.block.running = false ∧
      (Invariants s → t.block.stepsRemaining = 0#16)) ∧
  ∀ s : State, Invariants s → WeaklyFair s → s.block.running = true →
    (∀ e ∈ s.inputs, ∃ i, fetch e = .instr i ∧ ¬ IsCommand i) →
    ∃ k t, run k s = some t ∧ t.block.running = false ∧ t.block.stepsRemaining = 0#16 ∧
      t.block.stepsTaken.toNat = s.block.stepsTaken.toNat + s.block.stepsRemaining.toNat

/-- 20_memory.md section 4 (read after write): a read of any register issued after any command (INIT, a move, a move
of no steps, CANCEL), with k TICKs taken between the two, up to the stop TICK, returns the register in the command's
state followed by those k TICKs. (The schedule is the model's way to write an interleaving: log 1.) -/
def Obligations.ReadAfterWriteSeesTheCommand : Prop :=
  ∀ (i : Instr) (n : Count) (e : Input) (r : ReadRegister) (s : State) (k : Nat) (later : List Agent),
    ((∃ m, i = .init m) ∧ n = 0#16 ∨ moveSteps i = some n) → fetch e = .instr i → k ≤ 2 * n.toNat →
    s.inputs = [e, .access (.read r.offset 4)] →
    s.schedule = (if s.block.running then [.host] else []) ++ List.replicate k .timer ++
      (if k < 2 * n.toNat then .host :: later else later) →
    ∃ u v t, exec i { s with inputs := [] } = .next u ∧ run k u = some v ∧ run (k + 2) s = some t ∧
      t.block = v.block ∧ t.readLog = v.block.readValue s.config r :: s.readLog ∧ t.inputs = [] ∧
      t.schedule = later
end

