-- ==== Sys2Proof/Laws/State.lean ====
section
/-! SUPPORT. One lemma per field per update of the state and of the block, true by rfl, so that no later proof unfolds
an update. -/

namespace Sys2Proof.Machine

/-! ## Updates of State -/

variable (s : State) (b : Block) (c : Config)

@[simp] theorem State.withBlock_config : (s.withBlock b).config = s.config := rfl
@[simp] theorem State.withBlock_block : (s.withBlock b).block = b := rfl
@[simp] theorem State.withBlock_inputs : (s.withBlock b).inputs = s.inputs := rfl
@[simp] theorem State.withBlock_schedule : (s.withBlock b).schedule = s.schedule := rfl
@[simp] theorem State.withBlock_choices : (s.withBlock b).choices = s.choices := rfl
@[simp] theorem State.withBlock_readLog : (s.withBlock b).readLog = s.readLog := rfl

@[simp] theorem State.returning_config (w : Word) : (s.returning w).config = s.config := rfl
@[simp] theorem State.returning_block (w : Word) : (s.returning w).block = s.block := rfl
@[simp] theorem State.returning_inputs (w : Word) : (s.returning w).inputs = s.inputs := rfl
@[simp] theorem State.returning_schedule (w : Word) : (s.returning w).schedule = s.schedule := rfl
@[simp] theorem State.returning_choices (w : Word) : (s.returning w).choices = s.choices := rfl
@[simp] theorem State.returning_readLog (w : Word) : (s.returning w).readLog = w :: s.readLog := rfl

@[simp] theorem State.issuing_config (e : Input) : (s.issuing e).config = s.config := rfl
@[simp] theorem State.issuing_block (e : Input) : (s.issuing e).block = s.block := rfl
@[simp] theorem State.issuing_inputs (e : Input) : (s.issuing e).inputs = e :: s.inputs := rfl
@[simp] theorem State.issuing_schedule (e : Input) : (s.issuing e).schedule = s.schedule := rfl
@[simp] theorem State.issuing_choices (e : Input) : (s.issuing e).choices = s.choices := rfl
@[simp] theorem State.issuing_readLog (e : Input) : (s.issuing e).readLog = s.readLog := rfl

@[simp] theorem State.resetUnder_config : (State.resetUnder c).config = c := rfl
@[simp] theorem State.resetUnder_block : (State.resetUnder c).block = Block.reset c := rfl
@[simp] theorem State.resetUnder_inputs : (State.resetUnder c).inputs = [] := rfl
@[simp] theorem State.resetUnder_schedule : (State.resetUnder c).schedule = [] := rfl
@[simp] theorem State.resetUnder_choices : (State.resetUnder c).choices = 0 := rfl
@[simp] theorem State.resetUnder_readLog : (State.resetUnder c).readLog = [] := rfl

/-! ## Updates of Block -/

@[simp] theorem Block.setPeriod_stepsRemaining (i : Nat) : (Block.setPeriod c i b).stepsRemaining = b.stepsRemaining := rfl
@[simp] theorem Block.setPeriod_stepsTaken (i : Nat) : (Block.setPeriod c i b).stepsTaken = b.stepsTaken := rfl
@[simp] theorem Block.setPeriod_rampStage (i : Nat) : (Block.setPeriod c i b).rampStage = b.rampStage := rfl
@[simp] theorem Block.setPeriod_phaseMask (i : Nat) : (Block.setPeriod c i b).phaseMask = b.phaseMask := rfl
@[simp] theorem Block.setPeriod_pulsePhase (i : Nat) : (Block.setPeriod c i b).pulsePhase = b.pulsePhase := rfl
@[simp] theorem Block.setPeriod_running (i : Nat) : (Block.setPeriod c i b).running = b.running := rfl
@[simp] theorem Block.setPeriod_period (i : Nat) : (Block.setPeriod c i b).period = c.entry i := rfl
@[simp] theorem Block.setPeriod_halfPeriod (i : Nat) : (Block.setPeriod c i b).halfPeriod = c.entry i / 2#32 := rfl
@[simp] theorem Block.setPeriod_mode (i : Nat) : (Block.setPeriod c i b).mode = b.mode := rfl
@[simp] theorem Block.setPeriod_pulseL (i : Nat) : (Block.setPeriod c i b).pulseL = b.pulseL := rfl
@[simp] theorem Block.setPeriod_pulseR (i : Nat) : (Block.setPeriod c i b).pulseR = b.pulseR := rfl
@[simp] theorem Block.setPeriod_dirL (i : Nat) : (Block.setPeriod c i b).dirL = b.dirL := rfl
@[simp] theorem Block.setPeriod_dirR (i : Nat) : (Block.setPeriod c i b).dirR = b.dirR := rfl

@[simp] theorem Block.init_stepsRemaining (m : Mode) : (Block.init c m b).stepsRemaining = 0#16 := rfl
@[simp] theorem Block.init_stepsTaken (m : Mode) : (Block.init c m b).stepsTaken = 0#16 := rfl
@[simp] theorem Block.init_rampStage (m : Mode) : (Block.init c m b).rampStage = 0#8 := rfl
@[simp] theorem Block.init_phaseMask (m : Mode) : (Block.init c m b).phaseMask = 0b00#2 := rfl
@[simp] theorem Block.init_pulsePhase (m : Mode) : (Block.init c m b).pulsePhase = .low := rfl
@[simp] theorem Block.init_running (m : Mode) : (Block.init c m b).running = false := rfl
@[simp] theorem Block.init_period (m : Mode) : (Block.init c m b).period = c.entry 0 := rfl
@[simp] theorem Block.init_halfPeriod (m : Mode) : (Block.init c m b).halfPeriod = c.entry 0 / 2#32 := rfl
@[simp] theorem Block.init_mode (m : Mode) : (Block.init c m b).mode = m := rfl
@[simp] theorem Block.init_pulseL (m : Mode) : (Block.init c m b).pulseL = false := rfl
@[simp] theorem Block.init_pulseR (m : Mode) : (Block.init c m b).pulseR = false := rfl
@[simp] theorem Block.init_dirL (m : Mode) : (Block.init c m b).dirL = (initDirs c m).1 := rfl
@[simp] theorem Block.init_dirR (m : Mode) : (Block.init c m b).dirR = (initDirs c m).2 := rfl

@[simp] theorem Block.reset_stepsRemaining : (Block.reset c).stepsRemaining = 0#16 := rfl
@[simp] theorem Block.reset_stepsTaken : (Block.reset c).stepsTaken = 0#16 := rfl
@[simp] theorem Block.reset_rampStage : (Block.reset c).rampStage = 0#8 := rfl
@[simp] theorem Block.reset_phaseMask : (Block.reset c).phaseMask = 0b00#2 := rfl
@[simp] theorem Block.reset_pulsePhase : (Block.reset c).pulsePhase = .low := rfl
@[simp] theorem Block.reset_running : (Block.reset c).running = false := rfl
@[simp] theorem Block.reset_period : (Block.reset c).period = c.entry 0 := rfl
@[simp] theorem Block.reset_halfPeriod : (Block.reset c).halfPeriod = c.entry 0 / 2#32 := rfl
@[simp] theorem Block.reset_mode : (Block.reset c).mode = .half := rfl
@[simp] theorem Block.reset_pulseL : (Block.reset c).pulseL = false := rfl
@[simp] theorem Block.reset_pulseR : (Block.reset c).pulseR = false := rfl
@[simp] theorem Block.reset_dirL : (Block.reset c).dirL = false := rfl
@[simp] theorem Block.reset_dirR : (Block.reset c).dirR = false := rfl

@[simp] theorem Block.move_stepsRemaining (o : MoveOperands) : (b.move o).stepsRemaining = o.steps := rfl
@[simp] theorem Block.move_stepsTaken (o : MoveOperands) : (b.move o).stepsTaken = 0#16 := rfl
@[simp] theorem Block.move_rampStage (o : MoveOperands) : (b.move o).rampStage = b.rampStage := rfl
@[simp] theorem Block.move_phaseMask (o : MoveOperands) : (b.move o).phaseMask = o.mask := rfl
@[simp] theorem Block.move_pulsePhase (o : MoveOperands) : (b.move o).pulsePhase = .low := rfl
@[simp] theorem Block.move_running (o : MoveOperands) : (b.move o).running = runningAfterMove o.steps := rfl
@[simp] theorem Block.move_period (o : MoveOperands) : (b.move o).period = b.period := rfl
@[simp] theorem Block.move_halfPeriod (o : MoveOperands) : (b.move o).halfPeriod = b.halfPeriod := rfl
@[simp] theorem Block.move_mode (o : MoveOperands) : (b.move o).mode = b.mode := rfl
@[simp] theorem Block.move_pulseL (o : MoveOperands) : (b.move o).pulseL = false := rfl
@[simp] theorem Block.move_pulseR (o : MoveOperands) : (b.move o).pulseR = false := rfl
@[simp] theorem Block.move_dirL (o : MoveOperands) : (b.move o).dirL = o.dirL := rfl
@[simp] theorem Block.move_dirR (o : MoveOperands) : (b.move o).dirR = o.dirR := rfl

@[simp] theorem Block.stop_stepsRemaining : (b.stop).stepsRemaining = b.stepsRemaining := rfl
@[simp] theorem Block.stop_stepsTaken : (b.stop).stepsTaken = b.stepsTaken := rfl
@[simp] theorem Block.stop_rampStage : (b.stop).rampStage = b.rampStage := rfl
@[simp] theorem Block.stop_phaseMask : (b.stop).phaseMask = b.phaseMask := rfl
@[simp] theorem Block.stop_pulsePhase : (b.stop).pulsePhase = b.pulsePhase := rfl
@[simp] theorem Block.stop_running : (b.stop).running = false := rfl
@[simp] theorem Block.stop_period : (b.stop).period = b.period := rfl
@[simp] theorem Block.stop_halfPeriod : (b.stop).halfPeriod = b.halfPeriod := rfl
@[simp] theorem Block.stop_mode : (b.stop).mode = b.mode := rfl
@[simp] theorem Block.stop_pulseL : (b.stop).pulseL = b.pulseL := rfl
@[simp] theorem Block.stop_pulseR : (b.stop).pulseR = b.pulseR := rfl
@[simp] theorem Block.stop_dirL : (b.stop).dirL = b.dirL := rfl
@[simp] theorem Block.stop_dirR : (b.stop).dirR = b.dirR := rfl

@[simp] theorem Block.fall_stepsRemaining : (b.fall).stepsRemaining = b.stepsRemaining := rfl
@[simp] theorem Block.fall_stepsTaken : (b.fall).stepsTaken = b.stepsTaken := rfl
@[simp] theorem Block.fall_rampStage : (b.fall).rampStage = b.rampStage := rfl
@[simp] theorem Block.fall_phaseMask : (b.fall).phaseMask = b.phaseMask := rfl
@[simp] theorem Block.fall_pulsePhase : (b.fall).pulsePhase = .low := rfl
@[simp] theorem Block.fall_running : (b.fall).running = b.running := rfl
@[simp] theorem Block.fall_period : (b.fall).period = b.period := rfl
@[simp] theorem Block.fall_halfPeriod : (b.fall).halfPeriod = b.halfPeriod := rfl
@[simp] theorem Block.fall_mode : (b.fall).mode = b.mode := rfl
@[simp] theorem Block.fall_pulseL : (b.fall).pulseL = false := rfl
@[simp] theorem Block.fall_pulseR : (b.fall).pulseR = false := rfl
@[simp] theorem Block.fall_dirL : (b.fall).dirL = b.dirL := rfl
@[simp] theorem Block.fall_dirR : (b.fall).dirR = b.dirR := rfl

@[simp] theorem Block.rise_stepsRemaining : (b.rise).stepsRemaining = b.stepsRemaining - 1#16 := rfl
@[simp] theorem Block.rise_stepsTaken : (b.rise).stepsTaken = b.stepsTaken + 1#16 := rfl
@[simp] theorem Block.rise_rampStage : (b.rise).rampStage = b.rampStage := rfl
@[simp] theorem Block.rise_phaseMask : (b.rise).phaseMask = b.phaseMask := rfl
@[simp] theorem Block.rise_pulsePhase : (b.rise).pulsePhase = .high := rfl
@[simp] theorem Block.rise_running : (b.rise).running = b.running := rfl
@[simp] theorem Block.rise_period : (b.rise).period = b.period := rfl
@[simp] theorem Block.rise_halfPeriod : (b.rise).halfPeriod = b.halfPeriod := rfl
@[simp] theorem Block.rise_mode : (b.rise).mode = b.mode := rfl
@[simp] theorem Block.rise_pulseL : (b.rise).pulseL = b.phaseMask.getLsbD 0 := rfl
@[simp] theorem Block.rise_pulseR : (b.rise).pulseR = b.phaseMask.getLsbD 1 := rfl
@[simp] theorem Block.rise_dirL : (b.rise).dirL = b.dirL := rfl
@[simp] theorem Block.rise_dirR : (b.rise).dirR = b.dirR := rfl

@[simp] theorem Block.ramp_stepsRemaining : (Block.ramp c b).stepsRemaining = b.stepsRemaining :=
    by
  unfold Block.ramp
  split <;> rfl
@[simp] theorem Block.ramp_stepsTaken : (Block.ramp c b).stepsTaken = b.stepsTaken :=
    by
  unfold Block.ramp
  split <;> rfl
@[simp] theorem Block.ramp_rampStage : (Block.ramp c b).rampStage = BitVec.ofNat 8 (rampStageOf c b.boundary) :=
    by
  unfold Block.ramp
  split <;> rfl
@[simp] theorem Block.ramp_phaseMask : (Block.ramp c b).phaseMask = b.phaseMask :=
    by
  unfold Block.ramp
  split <;> rfl
@[simp] theorem Block.ramp_pulsePhase : (Block.ramp c b).pulsePhase = b.pulsePhase :=
    by
  unfold Block.ramp
  split <;> rfl
@[simp] theorem Block.ramp_running : (Block.ramp c b).running = b.running := by
  unfold Block.ramp
  split <;> rfl
@[simp] theorem Block.ramp_period : (Block.ramp c b).period = if b.boundary < c.duration then c.entry (rampStageOf c b.boundary) else b.period :=
    by
  unfold Block.ramp
  split <;> rfl
@[simp] theorem Block.ramp_halfPeriod : (Block.ramp c b).halfPeriod = if b.boundary < c.duration then c.entry (rampStageOf c b.boundary) / 2#32 else b.halfPeriod :=
    by
  unfold Block.ramp
  split <;> rfl
@[simp] theorem Block.ramp_mode : (Block.ramp c b).mode = b.mode := by
  unfold Block.ramp
  split <;> rfl
@[simp] theorem Block.ramp_pulseL : (Block.ramp c b).pulseL = b.pulseL := by
  unfold Block.ramp
  split <;> rfl
@[simp] theorem Block.ramp_pulseR : (Block.ramp c b).pulseR = b.pulseR := by
  unfold Block.ramp
  split <;> rfl
@[simp] theorem Block.ramp_dirL : (Block.ramp c b).dirL = b.dirL := by
  unfold Block.ramp
  split <;> rfl
@[simp] theorem Block.ramp_dirR : (Block.ramp c b).dirR = b.dirR := by
  unfold Block.ramp
  split <;> rfl

end Sys2Proof.Machine
end

