-- ==== Sys2Proof/Laws/Ops.lean ====
section
/-! SUPPORT. What the configuration guarantees, and for each shared operation one lemma that says everything it can
do. -/

namespace Sys2Proof

/-! ## The configuration (00_scope.md R6) -/

theorem Config.n_pos (c : Config) : 1 ≤ c.n := c.wellFormed.1.1

theorem Config.n_le (c : Config) : c.n ≤ 256 := c.wellFormed.1.2

theorem Config.interval_pos (c : Config) : 1 ≤ c.interval := c.wellFormed.2.1.1

theorem Config.duration_eq (c : Config) : c.duration = c.n * c.interval := c.wellFormed.2.2.1

theorem Config.duration_pos (c : Config) : 1 ≤ c.duration := by
  rw [c.duration_eq]
  exact Nat.mul_pos c.n_pos c.interval_pos

theorem Config.entry_bounds (c : Config) {i : Nat} (h : i < c.n) :
    1 ≤ c.params.entry i ∧ c.params.entry i < 2 ^ c.params.periodWidth := by
  have hb := c.wellFormed.2.2.2.2.1 i h
  have hp : 0 < 2 ^ c.params.periodWidth := Nat.two_pow_pos _
  omega

/-- An entry fits the 32 bits PERIOD is held in. -/
theorem Config.entry_lt_word (c : Config) {i : Nat} (h : i < c.n) : c.params.entry i < 2 ^ 32 :=
  lt_of_lt_of_le (c.entry_bounds h).2 (Nat.pow_le_pow_right (by decide) c.wellFormed.2.2.2.1.2)

theorem Config.entry_toNat (c : Config) {i : Nat} (h : i < c.n) : (c.entry i).toNat = c.params.entry i := by
  simpa [Config.entry] using Nat.mod_eq_of_lt (c.entry_lt_word h)

/-- The table never rises, from any index to any later one (00_scope.md R8). -/
theorem Config.entry_antitone (c : Config) {i j : Nat} (hij : i ≤ j) (hj : j < c.n) :
    c.params.entry j ≤ c.params.entry i := by
  induction j with
  | zero => rw [Nat.le_zero.mp hij]
  | succ j ih =>
    rcases Nat.eq_or_lt_of_le hij with rfl | hlt
    · exact le_rfl
    · exact le_trans (c.wellFormed.2.2.2.2.2.1 j (by unfold Config.n at hj; omega))
        (ih (by omega) (by omega))

/-- TIMER's turn always comes again (70_reset_and_hazards.md R235). -/
theorem Config.timerFirst_recurs (n : Nat) : ∃ m, n ≤ m ∧ Config.timerFirst m = true := Config.fairChoices.fair n

/-! ## Byte order (20_memory.md R53) -/

@[simp] theorem bytesWord_wordBytes (w : Word) : bytesWord (wordBytes w) = some w := by
  simp only [wordBytes, bytesWord, Option.some.injEq]
  ext i hi
  simp only [BitVec.getElem_append, BitVec.getElem_extractLsb']
  repeat' split
  all_goals
    rw [BitVec.getLsbD_eq_getElem (by omega)]
    congr 1
    omega

/-- A full write to CMD is the command its word says (20_memory.md R54). -/
theorem decodeAccess_writeCommand (w : Word) : decodeAccess (writeCommand w) = decodeCommand w := by
  simp [decodeAccess, writeCommand]

namespace Machine

/-! ## TICK (41_tick_fsm.md R141) -/

theorem Block.tick_of_stop (c : Config) {b : Block} (h : b.stepsRemaining = 0#16) : Block.tick c b = b.stop := by
  simp [Block.tick, tickStage, h]

theorem Block.tick_of_fall (c : Config) {b : Block} (h : b.stepsRemaining ≠ 0#16) (hp : b.pulsePhase = .high) :
    Block.tick c b = b.fall := by
  simp [Block.tick, tickStage, h, hp]

theorem Block.tick_of_rise (c : Config) {b : Block} (h : b.stepsRemaining ≠ 0#16) (hp : b.pulsePhase = .low) :
    Block.tick c b = Block.ramp c b.rise := by
  simp [Block.tick, tickStage, h, hp]

/-- Exactly one of the stages runs. -/
theorem Block.tick_cases (c : Config) (b : Block) :
    (b.stepsRemaining = 0#16 ∧ Block.tick c b = b.stop) ∨
    (b.stepsRemaining ≠ 0#16 ∧ b.pulsePhase = .high ∧ Block.tick c b = b.fall) ∨
    (b.stepsRemaining ≠ 0#16 ∧ b.pulsePhase = .low ∧ Block.tick c b = Block.ramp c b.rise) := by
  by_cases h : b.stepsRemaining = 0#16
  · exact .inl ⟨h, Block.tick_of_stop c h⟩
  · cases hp : b.pulsePhase with
    | high => exact .inr (.inl ⟨h, rfl, Block.tick_of_fall c h hp⟩)
    | low => exact .inr (.inr ⟨h, rfl, Block.tick_of_rise c h hp⟩)

/-- RAMP_STAGE is always an index of the table (10_state.md R38). -/
theorem rampStageOf_lt (c : Config) (boundary : Nat) : rampStageOf c boundary < c.n := by
  have := c.n_pos
  unfold rampStageOf
  omega

/-- TICK answers a next state exactly while RUNNING = 1, and then only the block differs. -/
theorem execTick_next {s t : State} (h : execTick s = .next t) :
    s.block.running = true ∧ t = s.withBlock (Block.tick s.config s.block) := by
  unfold execTick at h
  split at h
  · next hr => exact ⟨hr, (Host.Outcome.next.inj h).symm⟩
  · cases h

/-! ## Reads -/

/-- Bit 0 of STATUS is RUNNING (20_memory.md R52), in the form simp brings `getLsbD 0` to. -/
@[simp] theorem Block.status_bit0 (b : Block) : b.status[0] = b.running := by
  unfold Block.status
  rw [BitVec.getElem_append]
  simp

/-- A read gives HOST the register's value and changes nothing else. -/
theorem hostRead_eq (r : ReadRegister) (s : State) :
    hostRead r s = { s with readLog := s.block.readValue s.config r :: s.readLog } := rfl

/-- WAITSTOP reads STATUS, and is issued again exactly while RUNNING = 1. -/
theorem execWaitstop_cases (s : State) :
    (s.block.running = true ∧ execWaitstop s = .next ((hostRead .status s).issuing (.pseudo .waitstop))) ∨
    (s.block.running = false ∧ execWaitstop s = .next (hostRead .status s)) := by
  cases h : s.block.running <;> simp [execWaitstop, Block.readValue, h]

/-- A value below 2^PERIOD_WIDTH is read as it is. -/
theorem lowPeriodBits_of_lt (c : Config) {w : Word} (h : w.toNat < 2 ^ c.params.periodWidth) :
    lowPeriodBits c w = w := by
  simp [lowPeriodBits, Nat.mod_eq_of_lt h]

/-! ## Which agent moves -/

/-- Everything `arbitrate` can answer: nothing where no agent can move, TIMER while RUNNING = 1, or the first input;
only the model's own bookkeeping of the choice differs in the state handed on. -/
theorem arbitrate_cases (s : State) :
    (s.inputs = [] ∧ s.block.running = false ∧ arbitrate s = .none) ∨
    (s.block.running = true ∧ ∃ later k, arbitrate s = .timer { s with schedule := later, choices := k }) ∨
    (∃ e rest later k, s.inputs = e :: rest ∧
      arbitrate s = .input e { s with inputs := rest, schedule := later, choices := k }) := by
  cases hi : s.inputs with
  | nil =>
    cases hr : s.block.running with
    | false => exact .inl ⟨rfl, rfl, by simp [arbitrate, hi, hr]⟩
    | true =>
      refine .inr (.inl ⟨rfl, s.schedule, s.choices, ?_⟩)
      have ht : arbitrate s = .timer s := by simp [arbitrate, hi, hr]
      rw [ht, ← hi]
  | cons e rest =>
    cases hr : s.block.running with
    | false => exact .inr (.inr ⟨e, rest, s.schedule, s.choices, rfl, by simp [arbitrate, hi, hr]⟩)
    | true =>
      cases hs : s.schedule with
      | nil =>
        cases hf : Config.timerFirst s.choices with
        | true => exact .inr (.inl ⟨rfl, [], s.choices + 1, by simp [arbitrate, hi, hr, hs, hf]⟩)
        | false => exact .inr (.inr ⟨e, rest, [], s.choices + 1, rfl, by simp [arbitrate, hi, hr, hs, hf]⟩)
      | cons a later =>
        cases a with
        | timer => exact .inr (.inl ⟨rfl, later, s.choices, by simp [arbitrate, hi, hr, hs]⟩)
        | host => exact .inr (.inr ⟨e, rest, later, s.choices, rfl, by simp [arbitrate, hi, hr, hs]⟩)

/-- With the turn, the first input is taken, and only the model's bookkeeping of the choice differs. -/
theorem arbitrate_of_hostHasTheTurn {s : State} {e : Input} {rest : List Input} (hi : s.inputs = e :: rest)
    (h : HostHasTheTurn s) :
    ∃ later k, arbitrate s = .input e { s with inputs := rest, schedule := later, choices := k } := by
  cases hr : s.block.running with
  | false => exact ⟨s.schedule, s.choices, by simp [arbitrate, hi, hr]⟩
  | true =>
    rcases h with h | ⟨later, h⟩ | ⟨hs, hf⟩
    · simp [hr] at h
    · exact ⟨later, s.choices, by simp [arbitrate, hi, hr, h]⟩
    · exact ⟨[], s.choices + 1, by simp [arbitrate, hi, hr, hs, hf]⟩

/-! ## Runs -/

theorem run_zero (s : State) : run 0 s = some s := rfl

theorem run_succ (n : Nat) (s : State) : run (n + 1) s = (nextState? (step s)).bind (run n) := rfl

theorem run_of_step {s t : State} (n : Nat) (h : step s = .next t) : run (n + 1) s = run n t := by
  simp [run_succ, h, nextState?]

/-- A run in two parts. -/
theorem run_add (m n : Nat) (s : State) : run (m + n) s = (run m s).bind (run n) := by
  induction m generalizing s with
  | zero => simp [run_zero]
  | succ m ih =>
    rw [Nat.succ_add, run_succ, run_succ]
    cases nextState? (step s) with
    | none => rfl
    | some t => exact ih t

/-- Everything `powerOn` can answer (00_scope.md R6). -/
theorem powerOn_cases (p : Params) :
    (∃ h : p.WellFormed, powerOn p = .next (State.resetUnder ⟨p, h⟩)) ∨
    (¬ p.WellFormed ∧ powerOn p = .refused .illFormedConfiguration) := by
  by_cases h : p.WellFormed
  · exact .inl ⟨h, dif_pos h⟩
  · exact .inr ⟨h, dif_neg h⟩

end Machine

end Sys2Proof
end

