-- ==== Sys2Proof/Laws/PerInstr.lean ====
section
/-! SUPPORT. Statements about every instruction, proved one constructor at a time. -/

/-- The transaction an instruction encodes to, where it has one, has a shape the host port admits (20_memory.md R54). -/
def Sys2Proof.Laws.EncodedAccessAdmitted.Statement (i : Sys2Proof.Instr) : Prop :=
  ∀ a, Sys2Proof.encode i = some a → a.admitted = true

namespace Sys2Proof.Laws.EncodedAccessAdmitted

theorem writeCommand_admitted (w : Word) : (writeCommand w).admitted = true := rfl

theorem init (m : Mode) : Statement (.init m) := by
  rintro a ⟨⟩
  exact writeCommand_admitted _

theorem movs (s : Count) (d : Dir) : Statement (.movs s d) := by
  rintro a ⟨⟩
  exact writeCommand_admitted _

theorem rotc (s : Count) (d : Rotation) : Statement (.rotc s d) := by
  rintro a ⟨⟩
  exact writeCommand_admitted _

theorem rotw (s : Count) (w : Wheel) (d : Rotation) : Statement (.rotw s w d) := by
  rintro a ⟨⟩
  exact writeCommand_admitted _

theorem rdstat : Statement .rdstat := by
  rintro a ⟨⟩
  decide

theorem rdrem : Statement .rdrem := by
  rintro a ⟨⟩
  decide

theorem rdtaken : Statement .rdtaken := by
  rintro a ⟨⟩
  decide

theorem rdper : Statement .rdper := by
  rintro a ⟨⟩
  decide

theorem rdhalf : Statement .rdhalf := by
  rintro a ⟨⟩
  decide

theorem tick : Statement .tick := by
  rintro a ⟨⟩

theorem waitstop : Statement .waitstop := by
  rintro a ⟨⟩
  decide

theorem cancel (d : Dir) : Statement (.cancel d) := by
  rintro a ⟨⟩
  exact writeCommand_admitted _

end Sys2Proof.Laws.EncodedAccessAdmitted
end

