-- ==== Sys2Proof/Tests/Slice0.lean ====
section
/-! SUPPORT. Tests. Expected values come from 95_test_vectors.md or, where a comment says so, from a rule by hand. The
`test_witness_…` theorems show, for each obligation with hypotheses, a state and operands that meet them all. -/

namespace Sys2Proof.Machine.Tests

/-! ## Words written out from the encoding (95_test_vectors.md section 3) -/

theorem test_decode_init : decodeWord 0b000000000_0_0_0_0_001_0000000000000000#32 = some (.init .half) := by decide

theorem test_decode_init_ignores : decodeWord 0x00710000#32 = some (.init .full) := by decide

theorem test_decode_movs : decodeWord 0b000000000_0_0_1_0_010_0000000000010100#32 = some (.movs 20#16 .bwd) := by
  decide

theorem test_decode_movs_ignores : decodeWord 0x00620007#32 = some (.movs 7#16 .fwd) := by decide

theorem test_decode_rotc : decodeWord 0b000000000_0_0_1_0_011_0000001111101000#32 = some (.rotc 1000#16 .ccw) := by
  decide

theorem test_decode_rotw : decodeWord 0b000000000_0_1_1_0_100_0000000000000010#32 = some (.rotw 2#16 .right .ccw) := by
  decide

theorem test_decode_rotw_ignores : decodeWord 0x00440000#32 = some (.rotw 0#16 .left .cw) := by decide

theorem test_decode_reserved :
    [0x00000000#32, 0x00050000#32, 0x00060007#32, 0x00070007#32, 0x000A0007#32, 0x00820007#32, 0x80020007#32,
      0xFFFFFFFF#32].all (fun w => decodeWord w == none) = true := by
  decide

theorem test_decode_read_offsets :
    [0x04#5, 0x08#5, 0x0C#5, 0x10#5, 0x14#5].map decodeReadOffset =
      [some .rdstat, some .rdrem, some .rdtaken, some .rdper, some .rdhalf] := by
  decide

/-- V-ACC-3 to V-ACC-8. -/
theorem test_decode_unadmitted :
    [Access.read 0x00#5 4, .write 0x08#5 [1, 0, 2, 0], .read 0x04#5 2, .read 0x06#5 4, .read 0x18#5 4,
      .write 0x00#5 [7]].all (fun a => decodeAccess a == .rejected .unadmittedAccess) = true := by
  decide

theorem test_encode_rotw : encodeWord (.rotw 65535#16 .right .ccw) = some 0x0034FFFF#32 := by decide

theorem test_encode_cancel : encodeWord (.cancel .bwd) = some 0x00120000#32 := by decide

/-- The rows of opcode_table.json by their own bits: REG_READ rows have one byte. -/
theorem test_table_words :
    decodeTableWord 32 0x00410000 = some (.init .full) ∧ decodeTableWord 8 0x0C = some .rdtaken ∧
      decodeTableWord 8 0x14 = some .rdhalf ∧ decodeTableWord 32 0 = none := by
  decide

/-- STATUS = 0x0001003F as bytes (20_memory.md R53). -/
theorem test_status_bytes : wordBytes 0x0001003F#32 = [0x3F#8, 0x00#8, 0x01#8, 0x00#8] := by decide

/-! ## Well-formedness: one ill-formed term for each check, refused -/

theorem test_line_mode_keyword : (Line.init .cw).wellFormed = false ∧ (Line.init .full).wellFormed = true := by decide

theorem test_line_movs_literal :
    (Line.movs 65536 .fwd).wellFormed = false ∧ (Line.movs 65535 .fwd).wellFormed = true := by
  decide

theorem test_line_movs_keyword : (Line.movs 7 .cw).wellFormed = false := by decide

theorem test_line_rotc_literal : (Line.rotc 65536 .cw).wellFormed = false := by decide

theorem test_line_rotc_keyword : (Line.rotc 7 .fwd).wellFormed = false := by decide

theorem test_line_rotw_literal : (Line.rotw 65536 .left .cw).wellFormed = false := by decide

theorem test_line_rotw_wheel : (Line.rotw 7 .cw .cw).wellFormed = false := by decide

theorem test_line_rotw_keyword : (Line.rotw 7 .left .bwd).wellFormed = false := by decide

theorem test_line_cmd_literal : (Line.cmd 4294967296).wellFormed = false := by decide

theorem test_line_cancel_keyword : (Line.cancel .ccw).wellFormed = false := by decide

theorem test_access_width : (Access.read 0x04#5 2).admitted = false ∧ (Access.read 0x04#5 4).admitted = true := by decide

theorem test_access_offset : (Access.read 0x06#5 4).admitted = false := by decide

theorem test_access_data : (Access.write 0x00#5 [7]).admitted = false := by decide

theorem test_access_readonly : (Access.write 0x08#5 [1, 0, 2, 0]).admitted = false := by decide

theorem test_config_empty_table : ¬ ({ Params.cfgA with rampTable := [], rampDuration := 0 } : Params).WellFormed := by
  decide

theorem test_config_interval : ¬ ({ Params.cfgA with rampInterval := 0, rampDuration := 0 } : Params).WellFormed := by
  decide

theorem test_config_duration : ¬ ({ Params.cfgA with rampDuration := 9 } : Params).WellFormed := by decide

theorem test_config_width : ¬ ({ Params.cfgA with periodWidth := 33 } : Params).WellFormed := by decide

theorem test_config_entry : ¬ ({ Params.cfgA with periodWidth := 8 } : Params).WellFormed := by decide

theorem test_config_rising : ¬ ({ Params.cfgA with rampTable := [400, 300, 301, 100] } : Params).WellFormed := by decide

theorem test_config_dirs : ¬ ({ Params.cfgA with initDirFull := (false, false) } : Params).WellFormed := by decide

theorem test_assemble_movs :
    (Line.movs 20 .bwd).assemble = some (.access (.write 0x00#5 [0x14#8, 0x00#8, 0x12#8, 0x00#8])) := by
  decide

/-! ## One step each (the vectors named) -/

/-- The state of a configuration with these registers, nothing issued. -/
def stateWith (c : Config) (b : Block) : State := { State.resetUnder c with block := b }

/-- A move in progress, pulse Low, in CFG-C: REMAINING 7, TAKEN 0 (V-TICK-3). -/
def lowC : Block :=
  { Block.reset Config.cfgC with stepsRemaining := 7#16, phaseMask := 0b11#2, running := true }

/-- V-TICK-2: CFG-C, High, REMAINING 6, TAKEN 1. -/
def highC : Block :=
  { lowC with
    stepsRemaining := 6#16, stepsTaken := 1#16, rampStage := 1#8, pulsePhase := .high, period := 20#32,
    halfPeriod := 10#32, pulseL := true, pulseR := true }

/-- V-TICK-1: CFG-C, FINAL. -/
def finalC : Block :=
  { lowC with
    stepsRemaining := 0#16, stepsTaken := 7#16, pulsePhase := .high, pulseL := true, pulseR := true }

/-- The block after one instruction, none if it stops. -/
def after (i : Instr) (s : State) : Option Block := (nextState? (exec i s)).map State.block

theorem test_tick_rise :
    (after .tick (stateWith Config.cfgC lowC)).map
      (fun b => (b.stepsRemaining, b.stepsTaken, b.rampStage, b.period, b.halfPeriod, b.status)) =
      some (6#16, 1#16, 1#8, 20#32, 10#32, 0x0001003F#32) := by
  decide

theorem test_tick_fall :
    (after .tick (stateWith Config.cfgC highC)).map (fun b => (b.stepsRemaining, b.period, b.status)) =
      some (6#16, 20#32, 0x0001000D#32) := by
  decide

theorem test_tick_stop : (after .tick (stateWith Config.cfgC finalC)).map Block.status = some 0x0000003E#32 := by decide

/-- V-TICK-4: step 10 of MOVS #20 in CFG-A, PERIOD not written and the stage clamped. -/
theorem test_tick_cruise :
    (after .tick (stateWith Config.cfgA
      { lowC with stepsRemaining := 11#16, stepsTaken := 9#16, rampStage := 3#8, period := 100#32, halfPeriod := 50#32 })).map
      (fun b => (b.rampStage, b.period, b.halfPeriod)) = some (3#8, 100#32, 50#32) := by
  decide

theorem test_tick_not_running : after .tick (State.resetUnder Config.cfgA) = none := by decide

theorem test_init : (after (.init .full) (stateWith Config.cfgA lowC)).map Block.status = some 0x00000140#32 := by decide

theorem test_movs : (after (.movs 7#16 .fwd) (State.resetUnder Config.cfgA)).map Block.status = some 0x0000000D#32 := by
  decide

theorem test_rotc : (after (.rotc 3#16 .ccw) (State.resetUnder Config.cfgA)).map Block.status = some 0x0000004D#32 := by
  decide

theorem test_rotw : (after (.rotw 2#16 .right .ccw) (State.resetUnder Config.cfgA)).map Block.status =
    some 0x00000045#32 := by
  decide

/-- V-ZERO-2: a zero-step ROTW stops a move and keeps RAMP_STAGE and PERIOD. -/
theorem test_rotw_zero :
    (after (.rotw 0#16 .right .ccw)
      (stateWith Config.cfgA { highC with stepsRemaining := 18#16, stepsTaken := 2#16, period := 300#32 })).map
      (fun b => (b.status, b.period)) = some (0x00010044#32, 300#32) := by
  decide

/-- 40_host_commands.md R105 by hand: CANCEL BWD during a move. -/
theorem test_cancel : (after (.cancel .bwd) (stateWith Config.cfgC highC)).map Block.status = some 0x000100CC#32 := by
  decide

/-- V-RD-1: the values a read returns after MOVS #7 and one TICK in CFG-C. -/
theorem test_reads :
    [Instr.rdstat, .rdrem, .rdtaken, .rdper, .rdhalf].map
      (fun i => (nextState? (exec i (stateWith Config.cfgC highC))).bind fun t => t.readLog.head?) =
      [some 0x0001003F#32, some 6#32, some 1#32, some 20#32, some 10#32] := by
  decide

/-- V-RD-3: HALF_PERIOD of an odd entry rounds down. -/
theorem test_half_rounds_down : (Block.setPeriod { params := { Params.cfgA with rampTable := [401, 300, 200, 100] } } 0
    lowC).halfPeriod = 200#32 := by
  decide

/-- V-WAIT-1: WAITSTOP does not exit in FINAL. -/
theorem test_waitstop_final :
    (nextState? (exec .waitstop (stateWith Config.cfgC finalC))).map (fun t => (t.inputs, t.readLog)) =
      some ([.pseudo .waitstop], [0x0000003F#32]) := by
  decide

/-- V-WAIT-2: WAITSTOP exits after one read at reset. -/
theorem test_waitstop_idle :
    (nextState? (exec .waitstop (State.resetUnder Config.cfgA))).map (fun t => (t.inputs, t.readLog)) =
      some ([], [0x00000000#32]) := by
  decide

/-- V-RST-1. -/
theorem test_reset :
    (Block.reset Config.cfgA).status = 0x00000000#32 ∧ (Block.reset Config.cfgA).period = 400#32 ∧
      (Block.reset Config.cfgA).halfPeriod = 200#32 := by
  decide

/-- The step after reset, in the hardware's own configuration, runs the command placed (40_host_commands.md R106). -/
theorem test_first_step_movs :
    (nextState? (step (State.reset.withFetchWord 32 0x00020007))).map (fun t => (t.block.running, t.block.stepsRemaining)) =
      some (true, 7#16) := by
  decide

/-- And a read placed by its table bits (40_host_commands.md R115). -/
theorem test_first_step_rdstat :
    (nextState? (step (State.reset.withFetchWord 8 4))).map (fun t => t.readLog) = some [0x00000000#32] := by
  decide

/-- A two-step schedule: the TICK before the read (20_memory.md R59; V-RAMP-1 TICK 1). -/
theorem test_schedule_timer_first :
    (run 2 { stateWith Config.cfgC lowC with
      inputs := [.access (.read 0x08#5 4)], schedule := [.timer, .host] }).map (fun t => t.readLog) =
      some [6#32] := by
  decide

/-- A hardware reset taken during a move (70_reset_and_hazards.md R222). -/
theorem test_hardware_reset :
    (nextState? (step { stateWith Config.cfgC highC with inputs := [.reset], schedule := [.host] })).map State.block =
      some (Block.reset Config.cfgC) := by
  decide

/-- A reserved word is refused (95_test_vectors.md P5). -/
theorem test_reserved_word_refused : step (State.reset.withFetchWord 32 0) = .refused .reservedCommand := by rfl

/-! ## Witnesses: states and operands that meet the hypotheses of the obligations -/

/-- CFG-A after reset. -/
def idleA : State := State.resetUnder Config.cfgA

/-- CFG-C, Low, a move of 7 in progress. -/
def readyC : State := stateWith Config.cfgC lowC

/-- CFG-C, High, a move of 7 in progress. -/
def pulseC : State := stateWith Config.cfgC highC

/-- CFG-C, the last step High. -/
def lastC : State := stateWith Config.cfgC finalC

theorem idleA_invariants : Invariants idleA :=
  ⟨by decide, by decide, by decide, by decide, by decide, by decide, by decide⟩

theorem readyC_invariants : Invariants readyC :=
  ⟨by decide, by decide, by decide, by decide, by decide, by decide, by decide⟩

theorem pulseC_invariants : Invariants pulseC :=
  ⟨by decide, by decide, by decide, by decide, by decide, by decide, by decide⟩

theorem lastC_invariants : Invariants lastC :=
  ⟨by decide, by decide, by decide, by decide, by decide, by decide, by decide⟩

/-- CFG-A idle with one input to take. -/
def issueA (e : Input) : State := { idleA with inputs := [e] }

/-- CFG-C running with one input to take and a schedule. -/
def issueC (e : Input) (turns : List Agent) : State := { readyC with inputs := [e], schedule := turns }

theorem test_witness_TransactionsDecodeToTheirInstruction :
    (Instr.rotw 65535#16 .right .ccw).hasOwnWord = true ∧ Instr.rdhalf.hasOwnWord = true := by
  decide

/-- With RUNNING = 0, and with RUNNING = 1 and HOST's turn. -/
theorem test_witness_ReservedWordsAreRefused :
    decodeWord 0x00000000#32 = none ∧
      ((issueA (.access (.write 0x00#5 (wordBytes 0x00000000#32)))).inputs =
          .access (.write 0x00#5 (wordBytes 0x00000000#32)) :: [] ∧
        HostHasTheTurn (issueA (.access (.write 0x00#5 (wordBytes 0x00000000#32))))) ∧
      (issueC (.access (.write 0x00#5 (wordBytes 0x00000000#32))) [.host]).inputs =
          .access (.write 0x00#5 (wordBytes 0x00000000#32)) :: [] ∧
        (issueC (.access (.write 0x00#5 (wordBytes 0x00000000#32))) [.host]).block.running = true ∧
        HostHasTheTurn (issueC (.access (.write 0x00#5 (wordBytes 0x00000000#32))) [.host]) :=
  ⟨by decide, ⟨rfl, .inl rfl⟩, rfl, rfl, .inr (.inl ⟨[], rfl⟩)⟩

/-- One pair of words for each clause. -/
theorem test_witness_IgnoredFieldsHaveNoEffect :
    (0x00010005#32 &&& 0xFF8F0000#32 = 0x00010000#32 ∧
      0x00010005#32 &&& 0xFFCF0000#32 = 0x00310000#32 &&& 0xFFCF0000#32) ∧
    (0x00020007#32 &&& 0xFF8F0000#32 = 0x00020000#32 ∧
      0x00020007#32 &&& 0xFF9FFFFF#32 = 0x00620007#32 &&& 0xFF9FFFFF#32) ∧
    (0x0003FFFF#32 &&& 0xFF8F0000#32 = 0x00030000#32 ∧
      0x0003FFFF#32 &&& 0xFF9FFFFF#32 = 0x0063FFFF#32 &&& 0xFF9FFFFF#32) ∧
    (0x00040000#32 &&& 0xFF8F0000#32 = 0x00040000#32 ∧
      0x00040000#32 &&& 0xFFBFFFFF#32 = 0x00440000#32 &&& 0xFFBFFFFF#32) := by
  decide

theorem test_witness_ReencodingClearsIgnoredFields :
    decodeWord 0x00010005#32 = some (.init .half) ∧ decodeWord 0x00620007#32 = some (.movs 7#16 .fwd) ∧
      decodeWord 0x00440000#32 = some (.rotw 0#16 .left .cw) := by
  decide

theorem test_witness_BytesAreLittleEndian :
    3 < 4 ∧ windowByte Config.cfgC highC (Config.cfgC.params.base + ReadRegister.status.offset.toNat + 0) = some 0x3F#8 ∧
      windowByte Config.cfgC highC (Config.cfgC.params.base + ReadRegister.halfRd.offset.toNat + 3) = some 0x00#8 := by
  decide

theorem test_witness_AssemblerAgreesWithTheDecoder :
    65535 < 65536 ∧ (Line.instr? (.movs 65535 .bwd) = some (.movs 65535#16 .bwd) ∧
      (Line.assemble (.movs 65535 .bwd)).isSome = true) ∧
    Line.assemble (.cmd 0) = some (.access (.write 0x00#5 (wordBytes (BitVec.ofNat 32 0)))) := by
  decide

/-- Both clauses: HOST alone, and HOST by the schedule. -/
theorem test_witness_StepRunsTheDecodedInstruction :
    ((issueA (.access (.read 0x04#5 4))).inputs = .access (.read 0x04#5 4) :: [] ∧
      fetch (.access (.read 0x04#5 4)) = .instr .rdstat ∧ (issueA (.access (.read 0x04#5 4))).block.running = false) ∧
    ((issueC (.pseudo .waitstop) [.host]).inputs = .pseudo .waitstop :: [] ∧
      fetch (.pseudo .waitstop) = .instr .waitstop ∧ (issueC (.pseudo .waitstop) [.host]).block.running = true ∧
      (issueC (.pseudo .waitstop) [.host]).schedule = .host :: []) := by
  decide

/-- The clauses: nothing issued, TIMER by the schedule, and an empty schedule with an instruction, a hardware reset
or a refused access issued. -/
theorem test_witness_EitherAgentMayMove :
    (readyC.block.running = true ∧ readyC.inputs = []) ∧
    ((issueC (.pseudo .waitstop) [.timer]).block.running = true ∧
      (issueC (.pseudo .waitstop) [.timer]).inputs = .pseudo .waitstop :: [] ∧
      (issueC (.pseudo .waitstop) [.timer]).schedule = .timer :: []) ∧
    ((issueC (.pseudo .waitstop) []).block.running = true ∧
      (issueC (.pseudo .waitstop) []).inputs = .pseudo .waitstop :: [] ∧ (issueC (.pseudo .waitstop) []).schedule = [] ∧
      fetch (.pseudo .waitstop) = .instr .waitstop) ∧
    ((issueC .reset []).block.running = true ∧ (issueC .reset []).inputs = .reset :: [] ∧
      (issueC .reset []).schedule = []) ∧
    ((issueC (.access (.read 0x18#5 4)) []).block.running = true ∧
      (issueC (.access (.read 0x18#5 4)) []).inputs = .access (.read 0x18#5 4) :: [] ∧
      (issueC (.access (.read 0x18#5 4)) []).schedule = [] ∧
      fetch (.access (.read 0x18#5 4)) = .refused .unadmittedAccess) := by
  decide

theorem test_witness_StuckExactlyWhenQuiescent : step idleA = .fault .quiescent := by rfl

/-- Each name refused with RUNNING = 0, and the converse's hypotheses with RUNNING = 1 and HOST's turn. -/
theorem test_witness_RejectedAccessesAreRefused :
    (step (issueA (.access (.read 0x18#5 4))) = .refused .unadmittedAccess ∧
      step (issueA (.access (.write 0x00#5 [0, 0, 0, 0]))) = .refused .reservedCommand) ∧
    ((issueC (.access (.read 0x18#5 4)) [.host]).inputs = .access (.read 0x18#5 4) :: [] ∧
      (issueC (.access (.read 0x18#5 4)) [.host]).block.running = true ∧
      HostHasTheTurn (issueC (.access (.read 0x18#5 4)) [.host]) ∧
      decodeAccess (.read 0x18#5 4) = .rejected .unadmittedAccess) ∧
    decodeAccess (.write 0x00#5 [0, 0, 0, 0]) = .rejected .reservedCommand :=
  ⟨⟨rfl, rfl⟩, ⟨rfl, rfl, .inr (.inl ⟨[], rfl⟩), by decide⟩, by decide⟩

/-- A step taken, a read refused and a write refused; V-ACC-3 and V-ENC-15 in an implementation. -/
theorem test_witness_ImplementationIgnoresWhatTheModelRefuses :
    (∃ t, step readyC = .next t) ∧
    (step (issueA (.access (.read 0x00#5 4))) = .refused .unadmittedAccess ∧
      (nextState? (implementationStep (issueA (.access (.read 0x00#5 4))))).map (fun t => t.readLog) = some [0#32]) ∧
    (step (issueA (.access (.write 0x00#5 [0, 0, 0, 0]))) = .refused .reservedCommand ∧
      (nextState? (implementationStep (issueA (.access (.write 0x00#5 [0, 0, 0, 0]))))).map (fun t => (t.block, t.readLog)) =
        some (idleA.block, [])) :=
  ⟨⟨_, rfl⟩, ⟨rfl, by decide⟩, rfl, by decide⟩

theorem test_witness_PlacedWordRunsNext :
    (32 ≠ 0 ∧ decodeTableWord 32 0x0034FFFF = some (.rotw 65535#16 .right .ccw)) ∧
      8 ≠ 0 ∧ decodeTableWord 8 0x10 = some .rdper := by
  decide

theorem test_witness_ConfigurationNeverChanges : ∃ t, step readyC = .next t := ⟨_, rfl⟩

/-- Both ways the reset can be next: the block idle, and a move in progress with HOST's turn. -/
theorem test_witness_ResetEndsTheMove :
    ((issueA .reset).inputs = .reset :: [] ∧ HostHasTheTurn (issueA .reset)) ∧
      (issueC .reset [.host]).inputs = .reset :: [] ∧ (issueC .reset [.host]).block.running = true ∧
      HostHasTheTurn (issueC .reset [.host]) :=
  ⟨⟨rfl, .inl rfl⟩, rfl, rfl, .inr (.inl ⟨[], rfl⟩)⟩

/-- A configuration each clause is about: CFG-A, and one with RAMP_DURATION off by one. -/
theorem test_witness_IllFormedConfigurationsAreRefused :
    powerOn Params.cfgA = .next idleA ∧
      powerOn { Params.cfgA with rampDuration := 9 } = .refused .illFormedConfiguration :=
  ⟨dif_pos Config.cfgA.wellFormed, dif_neg test_config_duration⟩

theorem test_witness_InitWritesEveryRegister : idleA.config = Config.cfgA := rfl

theorem test_witness_InitIsIdempotent : (stateWith Config.cfgA highC).config = idleA.config ∧
    (stateWith Config.cfgA highC).block ≠ idleA.block := by
  decide

theorem test_witness_MovsDrivesBothMotorsAlike : idleA.config = Config.cfgA := rfl

theorem test_witness_RotcDrivesMotorsOppositely : idleA.config = Config.cfgA := rfl

theorem test_witness_RotwMasksTheNamedWheel : idleA.config = Config.cfgA := rfl

theorem test_witness_MoveCommandsPerformMoveCore :
    moveSteps (.rotw 65535#16 .left .cw) = some 65535#16 ∧ moveSteps (.cancel .fwd) = some 0#16 := by
  decide

/-- Two states in different moves that agree on what carries over. -/
theorem test_witness_PreemptionLeaksNothing :
    moveSteps (.rotc 2#16 .cw) = some 2#16 ∧ readyC.block.mode = lastC.block.mode ∧
      readyC.block.period = lastC.block.period ∧ readyC.block.halfPeriod = lastC.block.halfPeriod ∧
      readyC.block.rampStage = lastC.block.rampStage ∧ readyC.block ≠ lastC.block := by
  decide

theorem test_witness_RepeatedMoveRestarts : moveSteps (.movs 1#16 .fwd) = some 1#16 ∧ (1#16 : Count) ≠ 0#16 := by decide

theorem test_witness_CountReadsReturnTheCounts : after .tick (stateWith Config.cfgC lowC) ≠ none := by decide

theorem test_witness_PeriodReadsReturnThePeriods :
    PeriodFromTable pulseC.config pulseC.block ∧ idleA.config = Config.cfgA := by
  decide

theorem test_witness_ReadsHaveNoSideEffect :
    Instr.rdstat ∈ [Instr.rdstat, .rdrem, .rdtaken, .rdper, .rdhalf] ∧
      Instr.rdhalf ∈ [Instr.rdstat, .rdrem, .rdtaken, .rdper, .rdhalf] := by
  decide

/-- The clauses: RUNNING = 1, RUNNING = 0, and a WAITSTOP that falls through. -/
theorem test_witness_WaitstopPollsRunning :
    lastC.block.running = true ∧ idleA.block.running = false ∧ Invariants idleA ∧
      ∃ t, exec .waitstop idleA = .next t ∧ t.inputs = idleA.inputs :=
  ⟨rfl, rfl, idleA_invariants, _, rfl, rfl⟩

theorem test_witness_TickStopsAtZero :
    lastC.block.running = true ∧ lastC.block.stepsRemaining = 0#16 ∧ lastC.block.status = 0x0000003F#32 := by
  decide

theorem test_witness_TickMakesTheTrailingEdge :
    pulseC.block.running = true ∧ pulseC.block.stepsRemaining ≠ 0#16 ∧ pulseC.block.pulsePhase = .high ∧
      pulseC.block.status = 0x0001003F#32 ∧ Invariants { pulseC with block := { highC with
        phaseMask := 0b01#2, pulseR := false } } ∧ Invariants { pulseC with block := { highC with
        phaseMask := 0b10#2, pulseL := false } } :=
  ⟨by decide, by decide, by decide, by decide,
    ⟨by decide, by decide, by decide, by decide, by decide, by decide, by decide⟩,
    ⟨by decide, by decide, by decide, by decide, by decide, by decide, by decide⟩⟩

/-- The hypotheses of the leading edge hold in these states of CFG-A, one for each example of the rules. -/
theorem test_witness_TickMakesTheLeadingEdge :
    [(0b10#2, 0#16, 3#16, 400#32), (0b11#2, 6#16, 14#16, 100#32), (0b11#2, 1#16, 19#16, 400#32),
        (0b11#2, 9#16, 11#16, 100#32), (0b11#2, 65534#16, 1#16, 400#32)].all (fun v =>
      let b : Block := { lowC with phaseMask := v.1, stepsTaken := v.2.1, stepsRemaining := v.2.2.1, period := v.2.2.2 }
      (stateWith Config.cfgA b).block.running && b.stepsRemaining != 0#16 && b.pulsePhase == .low &&
        decide (b.stepsTaken.toNat + b.stepsRemaining.toNat ≤ 65535)) = true := by
  decide

theorem test_witness_TickRunsExactlyWhileRunning : readyC.block.running = true ∧ idleA.block.running = false := by decide

theorem test_witness_TickArithmeticNeverWraps :
    readyC.block.stepsTaken.toNat + readyC.block.stepsRemaining.toNat ≤ 65535 ∧ ∃ t, exec .tick readyC = .next t :=
  ⟨by decide, _, rfl⟩

/-- The clauses: RUNNING set, RUNNING cleared three ways, PULSE_PHASE set and cleared. -/
theorem test_witness_WritersOfTheFlags :
    (idleA.block.running = false ∧ (after (.movs 7#16 .fwd) idleA).map Block.running = some true) ∧
    (lastC.block.running = true ∧ (after .tick lastC).map Block.running = some false ∧
      (after (.init .half) lastC).map Block.running = some false ∧
      (after (.cancel .fwd) lastC).map Block.running = some false) ∧
    (readyC.block.pulsePhase = .low ∧ (after .tick readyC).map Block.pulsePhase = some .high) ∧
    (pulseC.block.pulsePhase = .high ∧ (after .tick pulseC).map Block.pulsePhase = some .low) := by
  decide

theorem test_witness_WritersOfTheOtherRegisters :
    (after (.init .full) readyC).map Block.mode = some .full ∧ readyC.block.mode = .half ∧
      (after (.rotc 1#16 .ccw) readyC).map Block.dirL = some true ∧ readyC.block.dirL = false ∧
      (after .tick readyC).map Block.period = some 20#32 ∧ readyC.block.period = 30#32 := by
  decide

theorem test_witness_EveryStepKeepsTheInvariants : Invariants readyC ∧ ∃ t, step readyC = .next t :=
  ⟨readyC_invariants, _, rfl⟩

/-- A move, INIT and a TICK, each from a state whose counts fit. -/
theorem test_witness_CountsAddUpToTheTarget :
    readyC.block.stepsTaken.toNat + readyC.block.stepsRemaining.toNat ≤ 65535 ∧
      moveSteps (.movs 65535#16 .fwd) = some 65535#16 ∧ moveSteps .tick = none ∧
      (∃ t, exec (.movs 65535#16 .fwd) readyC = .next t) ∧ (∃ t, exec (.init .full) readyC = .next t) ∧
      ∃ t, exec .tick readyC = .next t :=
  ⟨by decide, rfl, rfl, ⟨_, rfl⟩, ⟨_, rfl⟩, _, rfl⟩

/-- A state of each class, all with the invariants. -/
theorem test_witness_ControlClassesDecideTheTick :
    (Invariants idleA ∧ Invariants readyC ∧ Invariants pulseC ∧ Invariants lastC) ∧
      controlClass idleA.block = some .idle ∧ controlClass readyC.block = some .ready ∧
      controlClass pulseC.block = some .pulse ∧ controlClass lastC.block = some .final :=
  ⟨⟨idleA_invariants, readyC_invariants, pulseC_invariants, lastC_invariants⟩, by decide, by decide, by decide,
    by decide⟩

theorem test_witness_PeriodStaysWithinTheTable : Invariants pulseC := pulseC_invariants

theorem test_witness_MoveTakesTwoTicksPerStep :
    moveSteps (.movs 65535#16 .fwd) = some 65535#16 ∧ pulseC.inputs = [] := by
  decide

/-- From a stale period (PERIOD 20 is not RAMP_TABLE[0]); k at both ends. -/
theorem test_witness_PeriodFollowsTheStage :
    moveSteps (.rotc 2#16 .cw) = some 2#16 ∧ pulseC.inputs = [] ∧ Invariants pulseC ∧ (1 : Nat) ≤ 1 ∧
      2 ≤ (2#16 : Count).toNat :=
  ⟨rfl, rfl, pulseC_invariants, by decide, by decide⟩

theorem test_witness_RampIsSymmetric :
    moveSteps (.movs 20#16 .fwd) = some 20#16 ∧ idleA.inputs = [] ∧ Invariants idleA ∧
      idleA.block.period = idleA.config.entry 0 ∧ 20 ≤ (20#16 : Count).toNat :=
  ⟨rfl, rfl, idleA_invariants, rfl, by decide⟩

/-- CFG-A, V-RAMP-4: k = 6 of 17 by the first bound, k = 8 of 17 by the second. -/
theorem test_witness_CruisePlateau :
    moveSteps (.movs 17#16 .fwd) = some 17#16 ∧ idleA.inputs = [] ∧ Invariants idleA ∧
      Params.cfgA.rampDuration - Params.cfgA.rampInterval ≤ min 6 (17 - 6) ∧
      2 * Params.cfgA.rampDuration < 17 ∧ Params.cfgA.rampDuration ≤ 8 ∧ 8 ≤ 17 - Params.cfgA.rampDuration :=
  ⟨rfl, rfl, idleA_invariants, by decide, by decide, by decide, by decide⟩

/-- Each part of a move of 20 steps in CFG-A. -/
theorem test_witness_ProfileIsTrapezoidal :
    moveSteps (.movs 20#16 .fwd) = some 20#16 ∧ idleA.inputs = [] ∧ Invariants idleA ∧
      profilePhase Config.cfgA 20 2 = .acceleration ∧ profilePhase Config.cfgA 20 8 = .cruise ∧
      profilePhase Config.cfgA 20 13 = .deceleration ∧ 20 - 13 < 13 :=
  ⟨rfl, rfl, idleA_invariants, by decide, by decide, by decide, by decide⟩

theorem test_witness_StationaryWheelNeverPulses : idleA.inputs = [] ∧ 6 ≤ 2 * (3#16 : Count).toNat := by decide

theorem test_witness_CompletedMoveForgetsThePast :
    moveSteps (.rotc 2#16 .ccw) = some 2#16 ∧ (2#16 : Count) ≠ 0#16 ∧ pulseC.inputs = [] := by
  decide

theorem test_witness_RisingEdgesCountTheSteps : moveSteps (.rotw 3#16 .left .cw) = some 3#16 ∧ pulseC.inputs = [] := by
  decide

/-- V-RAMP-1: 220 clock units for MOVS #7 in CFG-C. -/
theorem test_witness_MoveDuration :
    moveSteps (.movs 7#16 .fwd) = some 7#16 ∧ (7#16 : Count) ≠ 0#16 ∧ lastC.inputs = [] ∧ Invariants lastC ∧
      (nextState? (exec (.movs 7#16 .fwd) lastC)).map (tickTime 14) = some 220 :=
  ⟨rfl, by decide, rfl, lastC_invariants, by decide⟩

/-- FINAL with one TICK to go: HOST polls twice first. And the idle clause. -/
theorem test_witness_WaitstopEndsOnceTimerHasItsTurns :
    ((issueA (.pseudo .waitstop)).inputs = [.pseudo .waitstop] ∧ (issueA (.pseudo .waitstop)).block.running = false) ∧
      ∃ s : State, s.inputs = [.pseudo .waitstop] ∧ s.block.running = true ∧
        s.schedule = [.host, .host] ++ .timer :: [] ∧
        ([Agent.host, .host]).count .timer + 1 = ticksToStop s.block :=
  ⟨by decide, { lastC with inputs := [.pseudo .waitstop], schedule := [.host, .host, .timer] }, rfl, rfl, rfl,
    by decide⟩

/-- CFG-C in FINAL with WAITSTOP issued: one poll, the stop TICK, the last poll. -/
def pollingLastC : State := { lastC with inputs := [.pseudo .waitstop], schedule := [.host, .timer] }

theorem lastC_weaklyFair : WeaklyFair lastC
  | 0, _, h, _ => ⟨0, lastC, by cases h; rfl, .inl ⟨_, rfl⟩⟩
  | 1, t, h, hr => by cases h; cases hr
  | k + 2, t, h, _ => by
    rw [Nat.add_comm, run_add, show run 2 lastC = none from rfl] at h
    cases h

theorem pollingLastC_weaklyFair : WeaklyFair pollingLastC
  | 0, _, h, _ => by cases h; exact ⟨1, _, rfl, .inl ⟨_, rfl⟩⟩
  | 1, _, h, _ => by cases h; exact ⟨0, _, rfl, .inl ⟨_, rfl⟩⟩
  | 2, t, h, hr => by cases h; cases hr
  | 3, t, h, hr => by cases h; cases hr
  | k + 4, t, h, _ => by
    rw [Nat.add_comm, run_add, show run 4 pollingLastC = none from rfl] at h
    cases h

/-- The run from FINAL with nothing issued: the stop TICK, and then the quiescent state. -/
theorem test_witness_RunsAreWeaklyFair : NeverRefused lastC
  | 0, _, _, h => by cases h; intro hs; cases hs
  | 1, _, _, h => by cases h; intro hs; cases hs
  | k + 2, t, _, h => by
    rw [Nat.add_comm, run_add, show run 2 lastC = none from rfl] at h
    cases h

/-- Both clauses, with WAITSTOP polling while RUNNING = 1. -/
theorem test_witness_FairRunsEndTheMove :
    (pollingLastC.inputs = .pseudo .waitstop :: [] ∧ WeaklyFair pollingLastC ∧ Invariants pollingLastC) ∧
      pollingLastC.block.running = true ∧
      ∀ e ∈ pollingLastC.inputs, ∃ i, fetch e = .instr i ∧ ¬ IsCommand i := by
  refine ⟨⟨rfl, pollingLastC_weaklyFair, ?_⟩, rfl, ?_⟩
  · exact ⟨by decide, by decide, by decide, by decide, by decide, by decide, by decide⟩
  · intro e he
    cases List.mem_singleton.mp he
    exact ⟨.waitstop, rfl, by rintro (⟨m, h⟩ | ⟨n, h⟩) <;> cases h⟩

/-- INIT with no TICK, a MOVS with one TICK, and a MOVS with all its TICKs, each written while a move runs. -/
theorem test_witness_ReadAfterWriteSeesTheCommand :
    (∃ s : State, fetch (.access (writeCommand 0x00010000#32)) = .instr (.init .half) ∧
      0 ≤ 2 * (0#16 : Count).toNat ∧ s.inputs = [.access (writeCommand 0x00010000#32), .access (.read 0x08#5 4)] ∧
      s.schedule = (if s.block.running then [.host] else []) ++ List.replicate 0 .timer ++ []) ∧
    (∃ s : State, moveSteps (.movs 7#16 .fwd) = some 7#16 ∧
      fetch (.access (writeCommand 0x00020007#32)) = .instr (.movs 7#16 .fwd) ∧ 1 < 2 * (7#16 : Count).toNat ∧
      s.inputs = [.access (writeCommand 0x00020007#32), .access (.read 0x04#5 4)] ∧
      s.schedule = (if s.block.running then [.host] else []) ++ List.replicate 1 .timer ++ .host :: []) ∧
    (∃ s : State, moveSteps (.movs 1#16 .fwd) = some 1#16 ∧
      fetch (.access (writeCommand 0x00020001#32)) = .instr (.movs 1#16 .fwd) ∧ ¬ 2 < 2 * (1#16 : Count).toNat ∧
      s.inputs = [.access (writeCommand 0x00020001#32), .access (.read 0x04#5 4)] ∧
      s.schedule = (if s.block.running then [.host] else []) ++ List.replicate 2 .timer ++ []) :=
  ⟨⟨{ pulseC with
      inputs := [.access (writeCommand 0x00010000#32), .access (.read 0x08#5 4)], schedule := [.host] },
    rfl, by decide, rfl, rfl⟩,
   ⟨{ pulseC with
      inputs := [.access (writeCommand 0x00020007#32), .access (.read 0x04#5 4)],
      schedule := [.host, .timer, .host] }, rfl, rfl, by decide, rfl, rfl⟩,
   ⟨{ pulseC with
      inputs := [.access (writeCommand 0x00020001#32), .access (.read 0x04#5 4)],
      schedule := [.host, .timer, .timer] }, rfl, rfl, by decide, rfl, rfl⟩⟩

end Sys2Proof.Machine.Tests
end

section
/-! PROOFS. 00_scope.md R6: the model's check of the parameters, stated on indices, is the one stated on the table,
and power-on answers by it. -/

namespace Sys2Proof

/-- An index of the table reads that entry: `entry`'s default outside the table does not matter. -/
theorem Params.entry_eq_getElem (p : Params) (i : Nat) (h : i < p.rampTable.length) :
    p.entry i = p.rampTable[i] := by
  simp [Params.entry, h]

/-- R6's fifth condition on the table's members. The power of two is positive, so `≤ 2 ^ w - 1` is `< 2 ^ w`. -/
theorem Params.entry_bounds_iff (p : Params) :
    (∀ i < p.n, 1 ≤ p.entry i ∧ p.entry i ≤ 2 ^ p.periodWidth - 1) ↔
      ∀ x ∈ p.rampTable, 1 ≤ x ∧ x < 2 ^ p.periodWidth := by
  rw [List.forall_mem_iff_forall_getElem]
  refine forall₂_congr fun i hi => ?_
  rw [p.entry_eq_getElem i hi, Nat.le_sub_one_iff_lt (Nat.two_pow_pos _)]

/-- R6's sixth condition on all pairs of the table: `≥` is transitive, so neighbours decide it. -/
theorem Params.entry_succ_le_iff (p : Params) :
    (∀ i < p.n - 1, p.entry (i + 1) ≤ p.entry i) ↔ p.rampTable.Pairwise (fun x y => y ≤ x) := by
  have neighbours : p.rampTable.Pairwise (· ≥ ·) ↔
      ∀ i (h : i + 1 < p.rampTable.length), p.rampTable[i] ≥ p.rampTable[i + 1] := by
    rw [← List.isChain_iff_pairwise, List.isChain_iff_getElem]
  refine Iff.trans (forall_congr' fun i => ?_) neighbours.symm
  rw [Params.n, Nat.lt_sub_iff_add_lt]
  refine forall_congr' fun h => ?_
  rw [p.entry_eq_getElem (i + 1) h, p.entry_eq_getElem i (Nat.lt_of_succ_lt h)]

/-- R6 with its two conditions on the entries stated on the table. -/
theorem Params.wellFormed_iff (p : Params) :
    p.WellFormed ↔
      (1 ≤ p.rampTable.length ∧ p.rampTable.length ≤ 256) ∧ (1 ≤ p.rampInterval ∧ p.rampInterval ≤ 65535) ∧
      p.rampDuration = p.rampTable.length * p.rampInterval ∧ (1 ≤ p.periodWidth ∧ p.periodWidth ≤ 32) ∧
      (∀ x ∈ p.rampTable, 1 ≤ x ∧ x < 2 ^ p.periodWidth) ∧ p.rampTable.Pairwise (fun x y => y ≤ x) ∧
      p.initDirHalf ≠ p.initDirFull := by
  rw [Params.WellFormed, p.entry_bounds_iff, p.entry_succ_le_iff, Params.n]

namespace Machine

/-- Settles O20: power-on answers by `WellFormed`, and that is R6's list of conditions. -/
theorem illFormedConfigurationsAreRefused : Obligations.IllFormedConfigurationsAreRefused := by
  intro p good
  have wellFormed_iff_good : p.WellFormed ↔ good := p.wellFormed_iff
  rcases powerOn_cases p with ⟨h, next⟩ | ⟨h, refused⟩
  · exact ⟨fun _ => ⟨⟨p, h⟩, rfl, next⟩, fun bad => absurd (wellFormed_iff_good.mp h) bad⟩
  · exact ⟨fun hgood => absurd (wellFormed_iff_good.mpr hgood) h, fun _ => refused⟩

end Machine

end Sys2Proof
end

section
/-! PROOFS. 10_state.md R32: what each kind of instruction does to the state, and from that, who writes RUNNING and
PULSE_PHASE. -/

namespace Sys2Proof.Machine

/-! ## The kinds of instruction -/

/-- Everything an instruction that completes can do: INIT's writes, MoveCore with the instruction's own STEPS, a TICK
while RUNNING = 1, or a read, which WAITSTOP may issue again while RUNNING = 1. -/
theorem exec_cases {i : Instr} {s t : State} (h : exec i s = .next t) :
    (∃ m, i = .init m ∧ t = s.withBlock (Block.init s.config m s.block)) ∨
    (∃ o : MoveOperands, moveSteps i = some o.steps ∧ t = hostMove o s) ∨
    (i = .tick ∧ s.block.running = true ∧ t = s.withBlock (Block.tick s.config s.block)) ∨
    (¬ IsCommand i ∧ i ≠ .tick ∧ ∃ r, t = hostRead r s ∨
      (i = .waitstop ∧ s.block.running = true ∧ t = (hostRead r s).issuing (.pseudo .waitstop))) := by
  cases i with
  | init m => exact .inl ⟨m, rfl, (Host.Outcome.next.inj h).symm⟩
  | movs n d => exact .inr (.inl ⟨movsOperands n d, rfl, (Host.Outcome.next.inj h).symm⟩)
  | rotc n d => exact .inr (.inl ⟨rotcOperands n d, rfl, (Host.Outcome.next.inj h).symm⟩)
  | rotw n w d => exact .inr (.inl ⟨rotwOperands n w d, rfl, (Host.Outcome.next.inj h).symm⟩)
  | cancel d => exact .inr (.inl ⟨movsOperands 0#16 d, rfl, (Host.Outcome.next.inj h).symm⟩)
  | tick => exact .inr (.inr (.inl ⟨rfl, execTick_next h⟩))
  | rdstat => exact .inr (.inr (.inr ⟨by simp [moveSteps], nofun, .status, .inl (Host.Outcome.next.inj h).symm⟩))
  | rdrem => exact .inr (.inr (.inr ⟨by simp [moveSteps], nofun, .remaining, .inl (Host.Outcome.next.inj h).symm⟩))
  | rdtaken => exact .inr (.inr (.inr ⟨by simp [moveSteps], nofun, .taken, .inl (Host.Outcome.next.inj h).symm⟩))
  | rdper => exact .inr (.inr (.inr ⟨by simp [moveSteps], nofun, .periodRd, .inl (Host.Outcome.next.inj h).symm⟩))
  | rdhalf => exact .inr (.inr (.inr ⟨by simp [moveSteps], nofun, .halfRd, .inl (Host.Outcome.next.inj h).symm⟩))
  | waitstop =>
    refine .inr (.inr (.inr ⟨by simp [moveSteps], nofun, .status, ?_⟩))
    replace h : execWaitstop s = .next t := h
    rcases execWaitstop_cases s with ⟨hr, again⟩ | ⟨-, done⟩
    · exact .inr ⟨rfl, hr, (Host.Outcome.next.inj (again.symm.trans h)).symm⟩
    · exact .inl (Host.Outcome.next.inj (done.symm.trans h)).symm

/-- A move command is not INIT. -/
theorem ne_init_of_moveSteps {i : Instr} {n : Count} (h : moveSteps i = some n) (m : Mode) : i ≠ .init m := by
  rintro rfl
  cases h

/-- A move command is not TICK. -/
theorem ne_tick_of_moveSteps {i : Instr} {n : Count} (h : moveSteps i = some n) : i ≠ .tick := by
  rintro rfl
  cases h

/-! ## The flags under each kind -/

@[simp] theorem hostRead_block (r : ReadRegister) (s : State) : (hostRead r s).block = s.block := rfl

@[simp] theorem hostMove_block (o : MoveOperands) (s : State) : (hostMove o s).block = s.block.move o := rfl

theorem runningAfterMove_eq_true_iff (n : Count) : runningAfterMove n = true ↔ n ≠ 0#16 := bne_iff_ne

theorem runningAfterMove_eq_false_iff (n : Count) : runningAfterMove n = false ↔ n = 0#16 := bne_eq_false_iff_eq

/-- Of the stages of TICK only the stop guard clears RUNNING. -/
theorem Block.tick_running_eq_false_iff (c : Config) {b : Block} (hr : b.running = true) :
    (Block.tick c b).running = false ↔ b.stepsRemaining = 0#16 := by
  rcases b.tick_cases c with ⟨h, stop⟩ | ⟨h, -, fall⟩ | ⟨h, -, rise⟩
  · simp [stop, h]
  · simp [fall, h, hr]
  · simp [rise, h, hr]

/-- With steps left, TICK turns the phase round: the leading edge from Low, the trailing edge from High. -/
theorem Block.tick_pulsePhase_eq_high_iff (c : Config) {b : Block} (h : b.stepsRemaining ≠ 0#16) :
    (Block.tick c b).pulsePhase = .high ↔ b.pulsePhase = .low := by
  cases hp : b.pulsePhase with
  | low => simp [Block.tick_of_rise c h hp]
  | high => simp [Block.tick_of_fall c h hp]

/-- The stop guard does not write PULSE_PHASE. -/
theorem Block.stepsRemaining_ne_zero_of_tick_pulsePhase_ne (c : Config) {b : Block}
    (h : (Block.tick c b).pulsePhase ≠ b.pulsePhase) : b.stepsRemaining ≠ 0#16 := by
  intro h0
  simp [Block.tick_of_stop c h0] at h

/-! ## R32 -/

/-- Settles O41, kind by kind of instruction: INIT and MoveCore write both flags, a TICK the flag of its stage, and a
read neither. -/
theorem writersOfTheFlags : Obligations.WritersOfTheFlags := by
  intro i s t h
  rcases exec_cases h with ⟨m, rfl, rfl⟩ | ⟨o, move, rfl⟩ | ⟨rfl, running, rfl⟩ | ⟨notCommand, notTick, r, read⟩
  · simp [moveSteps]
  · have notInit := ne_init_of_moveSteps move
    have notTick := ne_tick_of_moveSteps move
    simp [move, notInit, notTick, runningAfterMove_eq_true_iff, runningAfterMove_eq_false_iff]
  · have stops := Block.tick_running_eq_false_iff s.config running
    have turns := Block.tick_pulsePhase_eq_high_iff s.config (b := s.block)
    have edge := Block.stepsRemaining_ne_zero_of_tick_pulsePhase_ne s.config (b := s.block)
    rw [State.withBlock_block]
    refine ⟨by simp [running], fun _ stopped => .inr (.inr ⟨rfl, stops.mp stopped⟩), fun low high => ?_,
      fun high low => ?_, nofun, nofun, fun _ => ⟨stops, turns⟩⟩
    · exact ⟨rfl, edge (by simp [low, high])⟩
    · exact .inr (.inr ⟨rfl, edge (by simp [low, high])⟩)
  · have unchanged : t.block = s.block := by
      rcases read with rfl | ⟨-, -, rfl⟩ <;> simp
    obtain ⟨notInit, notMove⟩ := not_or.mp notCommand
    push Not at notInit notMove
    simp +contextual [unchanged, notInit, notMove, notTick]

end Sys2Proof.Machine
end

section
/-! PROOFS. 20_memory.md section 2: the byte order of the window (R53) and the fields of STATUS (R52), both from the
number that bits put side by side stand for. -/

namespace Sys2Proof

/-! ## Concatenated fields as numbers -/

/-- The field on the left of `++` is counted in units of the field on its right. -/
theorem toNat_append_eq_mul_add {m n : Nat} (x : BitVec m) (y : BitVec n) :
    (x ++ y).toNat = x.toNat * 2 ^ n + y.toNat := by
  rw [BitVec.toNat_append, ← Nat.shiftLeft_add_eq_or_of_lt y.isLt, Nat.shiftLeft_eq]

/-! ## Byte order (R53) -/

/-- Four bytes make the number they spell in base 256, the first the least significant. -/
theorem toNat_append_bytes (b0 b1 b2 b3 : Byte) :
    (b3 ++ b2 ++ b1 ++ b0).toNat =
      b0.toNat + 256 * b1.toNat + 65536 * b2.toNat + 16777216 * b3.toNat := by
  simp only [toNat_append_eq_mul_add]
  omega

/-- A 32-bit write at 0x00 is the command of the word its bytes make. -/
theorem decodeAccess_write_bytes (b0 b1 b2 b3 : Byte) :
    decodeAccess (.write 0x00#5 [b0, b1, b2, b3]) = decodeCommand (b3 ++ b2 ++ b1 ++ b0) := rfl

/-- Byte k of a word holds its bits 8k+7 to 8k. -/
theorem wordBytes_getElem? (w : Word) {k : Nat} (hk : k < 4) :
    (wordBytes w)[k]? = some (BitVec.ofNat 8 (w.toNat / 2 ^ (8 * k))) := by
  have byte_eq : (wordBytes w)[k]? = some (w.extractLsb' (8 * k) 8) := by
    interval_cases k <;> rfl
  rw [byte_eq, BitVec.extractLsb', Nat.shiftRight_eq_div_pow]

/-- MODE as a number: HALF = 0, FULL = 1 (30_encoding.md R83). -/
theorem Mode.bit_toNat (m : Mode) : m.bit.toNat = if m = .full then 1 else 0 := by
  cases m <;> rfl

namespace Machine

/-- The readable registers lie inside the window. -/
theorem ReadRegister.offset_add_lt (r : ReadRegister) {k : Nat} (hk : k < 4) : r.offset.toNat + k < 32 := by
  have : r.offset.toNat ≤ 0x14 := by cases r <;> decide
  omega

/-- An offset is 4-byte aligned: the four bytes from a register's own on are that register's. -/
theorem ReadRegister.at?_offset_add (r : ReadRegister) {k : Nat} (hk : k < 4) :
    ReadRegister.at? (BitVec.ofNat 5 (r.offset.toNat + k) &&& 0b11100#5) = some r := by
  revert k
  cases r <;> decide

/-- The low two bits of an address in a register are the number of the byte. -/
theorem ReadRegister.byteNumber_offset_add (r : ReadRegister) {k : Nat} (hk : k < 4) :
    (BitVec.ofNat 5 (r.offset.toNat + k) &&& 0b00011#5).toNat = k := by
  revert k
  cases r <;> decide

/-- BASE places the window: the address BASE + n is offset n, for the 32 addresses there are. -/
theorem Config.offset?_base_add (c : Config) {n : Nat} (hn : n < 32) :
    Config.offset? c (c.params.base + n) = some (BitVec.ofNat 5 n) := by
  simp [Config.offset?, hn]

/-- The address BASE + o + k holds byte k of the register at offset o. -/
theorem windowByte_base_add (c : Config) (b : Block) (r : ReadRegister) {k : Nat} (hk : k < 4) :
    windowByte c b (c.params.base + r.offset.toNat + k) = (wordBytes (b.readValue c r))[k]? := by
  simp only [windowByte, Nat.add_assoc, Config.offset?_base_add c (r.offset_add_lt hk), r.at?_offset_add hk,
    r.byteNumber_offset_add hk, Option.bind_eq_bind, Option.bind_some]

/-- Settles O8: the bytes of a write are the digits of the command word in base 256, and so are the four bytes the
window keeps of a register. -/
theorem bytesAreLittleEndian : Obligations.BytesAreLittleEndian := by
  refine ⟨fun b0 b1 b2 b3 => ?_, fun c b r k hk => ?_⟩
  · exact ⟨b3 ++ b2 ++ b1 ++ b0, toNat_append_bytes b0 b1 b2 b3, decodeAccess_write_bytes b0 b1 b2 b3⟩
  · rw [windowByte_base_add c b r hk, wordBytes_getElem? _ hk]

/-! ## STATUS (R52) -/

/-- PULSE_PHASE as a number: Low = 0, High = 1 (10_state.md R24). -/
theorem PulsePhase.bit_toNat (p : PulsePhase) : p.bit.toNat = if p = .high then 1 else 0 := by
  cases p <;> rfl

/-- STATUS is the sum of its fields, each at the weight of its lowest bit; every other bit is 0. -/
theorem Block.status_toNat (b : Block) :
    b.status.toNat = b.running.toNat + 2 * b.pulsePhase.bit.toNat +
      4 * (b.phaseMask.getLsbD 0).toNat + 8 * (b.phaseMask.getLsbD 1).toNat +
      16 * b.pulseL.toNat + 32 * b.pulseR.toNat + 64 * b.dirL.toNat + 128 * b.dirR.toNat +
      256 * b.mode.bit.toNat + 65536 * b.rampStage.toNat := by
  simp only [Block.status, toNat_append_eq_mul_add, BitVec.toNat_ofBool, BitVec.toNat_ofNat]
  omega

/-- RDSTAT is the read of STATUS. -/
theorem exec_rdstat (s : State) : exec .rdstat s = .next { s with readLog := s.block.status :: s.readLog } := rfl

/-- Settles O31: RDSTAT returns STATUS, whose fields stand side by side. -/
theorem statusWordLayout : Obligations.StatusWordLayout := by
  intro s
  refine ⟨s.block.status, exec_rdstat s, ?_⟩
  rw [Block.status_toNat, PulsePhase.bit_toNat, Mode.bit_toNat]

end Machine

end Sys2Proof
end

section
/-! PROOFS. 30_encoding.md sections 1 to 3 and 20_memory.md R54: the command word as its fields side by side, what
the decoder reads from it (R84, R86), the round trip through the encoder (R87), and the accesses that are admitted. -/

namespace Sys2Proof

/-! ## The command word as its fields (R80 to R83) -/

/-- The word with these fields, from bit 31 down: bits 31:23, MODE, WHEEL, DIR, bit 19, OP, STEPS. -/
def fieldsWord (high : BitVec 9) (mode wheel dir bit19 : Bool) (op : BitVec 3) (steps : Count) : Word :=
  high ++ BitVec.ofBool mode ++ BitVec.ofBool wheel ++ BitVec.ofBool dir ++ BitVec.ofBool bit19 ++ op ++ steps

section FieldsOfFieldsWord
variable (high : BitVec 9) (mode wheel dir bit19 : Bool) (op : BitVec 3) (steps : Count)

@[simp] theorem stepsField_fieldsWord : stepsField (fieldsWord high mode wheel dir bit19 op steps) = steps :=
  BitVec.extractLsb'_append_eq_right

@[simp] theorem opField_fieldsWord : opField (fieldsWord high mode wheel dir bit19 op steps) = op := by
  rw [opField, fieldsWord, BitVec.extractLsb'_append_eq_of_le (by decide)]
  exact BitVec.extractLsb'_append_eq_right

@[simp] theorem fieldsWord_mode : (fieldsWord high mode wheel dir bit19 op steps)[22] = mode := by
  rw [fieldsWord, BitVec.getElem_append]
  simp only [BitVec.getElem_append, BitVec.getElem_ofBool, Nat.reduceLT, Nat.reduceSub, ↓reduceDIte]

@[simp] theorem fieldsWord_wheel : (fieldsWord high mode wheel dir bit19 op steps)[21] = wheel := by
  rw [fieldsWord, BitVec.getElem_append]
  simp only [BitVec.getElem_append, BitVec.getElem_ofBool, Nat.reduceLT, Nat.reduceSub, ↓reduceDIte]

@[simp] theorem fieldsWord_dir : (fieldsWord high mode wheel dir bit19 op steps)[20] = dir := by
  rw [fieldsWord, BitVec.getElem_append]
  simp only [BitVec.getElem_append, BitVec.getElem_ofBool, Nat.reduceLT, Nat.reduceSub, ↓reduceDIte]

@[simp] theorem fieldsWord_bit19 : (fieldsWord high mode wheel dir bit19 op steps)[19] = bit19 := by
  rw [fieldsWord, BitVec.getElem_append]
  simp only [BitVec.getElem_append, BitVec.getElem_ofBool, Nat.reduceLT, Nat.reduceSub, ↓reduceDIte]

@[simp] theorem extractLsb'_fieldsWord_high :
    (fieldsWord high mode wheel dir bit19 op steps).extractLsb' 23 9 = high := by
  rw [fieldsWord]
  iterate 6 rw [BitVec.extractLsb'_append_eq_of_le (by decide)]
  simp

@[simp] theorem reservedBitsClear_fieldsWord :
    reservedBitsClear (fieldsWord high mode wheel dir bit19 op steps) = (high == 0#9 && !bit19) := by
  simp [reservedBitsClear]

/-- The number of the word: each field at the weight of its lowest bit. -/
theorem fieldsWord_toNat :
    (fieldsWord high mode wheel dir bit19 op steps).toNat =
      high.toNat * 2 ^ 23 + mode.toNat * 2 ^ 22 + wheel.toNat * 2 ^ 21 + dir.toNat * 2 ^ 20 + bit19.toNat * 2 ^ 19 +
        op.toNat * 2 ^ 16 + steps.toNat := by
  simp only [fieldsWord, toNat_append_eq_mul_add, BitVec.toNat_ofBool]
  omega

end FieldsOfFieldsWord

/-- Every word is its fields side by side. -/
theorem eq_fieldsWord (w : Word) :
    w = fieldsWord (w.extractLsb' 23 9) (w.getLsbD 22) (w.getLsbD 21) (w.getLsbD 20) (w.getLsbD 19) (opField w)
      (stepsField w) := by
  have bit (i : Nat) : BitVec.ofBool (w.getLsbD i) = w.extractLsb' i 1 := by
    ext j hj
    simp [Nat.lt_one_iff.mp hj]
  simp only [fieldsWord, bit, opField, stepsField]
  iterate 6 rw [BitVec.extractLsb'_append_extractLsb'_eq_extractLsb' (by decide)]
  exact BitVec.extractLsb'_eq_self.symm

/-- AND acts field by field. -/
theorem fieldsWord_and (h h' : BitVec 9) (m m' v v' d d' z z' : Bool) (op op' : BitVec 3) (s s' : Count) :
    fieldsWord h m v d z op s &&& fieldsWord h' m' v' d' z' op' s' =
      fieldsWord (h &&& h') (m && m') (v && v') (d && d') (z && z') (op &&& op') (s &&& s') := by
  simp only [fieldsWord, ← BitVec.ofBool_and_ofBool, ← BitVec.and_append]

/-! ## The encoder by fields (R87) -/

/-- STEPS fills the low half of the word, where the other fields leave 0. -/
theorem fieldsWord_or_setWidth (high : BitVec 9) (mode wheel dir bit19 : Bool) (op : BitVec 3) (steps : Count) :
    fieldsWord high mode wheel dir bit19 op 0#16 ||| steps.setWidth 32 =
      fieldsWord high mode wheel dir bit19 op steps := by
  rw [BitVec.setWidth_eq_append (by decide : 16 ≤ 32)]
  exact BitVec.or_append.trans (by rw [BitVec.or_zero, BitVec.zero_or]; rfl)

theorem encodeWord_init (m : Mode) :
    encodeWord (.init m) = some (fieldsWord 0#9 m.bit false false false 0b001#3 0#16) := by
  cases m <;> rfl

theorem encodeWord_movs (s : Count) (d : Dir) :
    encodeWord (.movs s d) = some (fieldsWord 0#9 false false d.bit false 0b010#3 s) := by
  have header : 0x00020000#32 ||| operandBit d.bit 20 = fieldsWord 0#9 false false d.bit false 0b010#3 0#16 := by
    cases d <;> rfl
  rw [encodeWord, header, fieldsWord_or_setWidth]

theorem encodeWord_rotc (s : Count) (d : Rotation) :
    encodeWord (.rotc s d) = some (fieldsWord 0#9 false false d.bit false 0b011#3 s) := by
  have header : 0x00030000#32 ||| operandBit d.bit 20 = fieldsWord 0#9 false false d.bit false 0b011#3 0#16 := by
    cases d <;> rfl
  rw [encodeWord, header, fieldsWord_or_setWidth]

theorem encodeWord_rotw (s : Count) (v : Wheel) (d : Rotation) :
    encodeWord (.rotw s v d) = some (fieldsWord 0#9 false v.bit d.bit false 0b100#3 s) := by
  have header : 0x00040000#32 ||| operandBit v.bit 21 ||| operandBit d.bit 20 =
      fieldsWord 0#9 false v.bit d.bit false 0b100#3 0#16 := by
    cases v <;> cases d <;> rfl
  rw [encodeWord, header, fieldsWord_or_setWidth]

/-! ## The decoder by fields (R83, R86) -/

@[simp] theorem Mode.ofBit_bit (m : Mode) : Mode.ofBit m.bit = m := by cases m <;> rfl

@[simp] theorem Dir.ofBit_bit (d : Dir) : Dir.ofBit d.bit = d := by cases d <;> rfl

@[simp] theorem Rotation.ofBit_bit (d : Rotation) : Rotation.ofBit d.bit = d := by cases d <;> rfl

@[simp] theorem Wheel.ofBit_bit (v : Wheel) : Wheel.ofBit v.bit = v := by cases v <;> rfl

theorem decodeWord_of_op_init {w : Word} (h : reservedBitsClear w = true ∧ opField w = 0b001#3) :
    decodeWord w = some (.init (Mode.ofBit (w.getLsbD 22))) := by
  simp [decodeWord, h]

theorem decodeWord_of_op_movs {w : Word} (h : reservedBitsClear w = true ∧ opField w = 0b010#3) :
    decodeWord w = some (.movs (stepsField w) (Dir.ofBit (w.getLsbD 20))) := by
  simp [decodeWord, h]

theorem decodeWord_of_op_rotc {w : Word} (h : reservedBitsClear w = true ∧ opField w = 0b011#3) :
    decodeWord w = some (.rotc (stepsField w) (Rotation.ofBit (w.getLsbD 20))) := by
  simp [decodeWord, h]

theorem decodeWord_of_op_rotw {w : Word} (h : reservedBitsClear w = true ∧ opField w = 0b100#3) :
    decodeWord w =
      some (.rotw (stepsField w) (Wheel.ofBit (w.getLsbD 21)) (Rotation.ofBit (w.getLsbD 20))) := by
  simp [decodeWord, h]

/-- STEPS is the number in the low 16 bits. -/
theorem stepsField_eq_ofNat (w : Word) : stepsField w = BitVec.ofNat 16 (w.toNat % 65536) := by
  refine BitVec.eq_of_toNat_eq ?_
  simp [stepsField]

/-! ## The mask and its matches (R86) -/

theorem reservedBitsClear_iff (w : Word) :
    reservedBitsClear w = true ↔ w.extractLsb' 23 9 = 0#9 ∧ w.getLsbD 19 = false := by
  simp [reservedBitsClear]

/-- The mask 0xFF8F0000 keeps bits 31:23, bit 19 and OP, and clears the operands. -/
theorem and_decodeMask (w : Word) :
    w &&& 0xFF8F0000#32 = fieldsWord (w.extractLsb' 23 9) false false false (w.getLsbD 19) (opField w) 0#16 := by
  have mask : 0xFF8F0000#32 = fieldsWord (BitVec.allOnes 9) false false false true (BitVec.allOnes 3) 0#16 := by decide
  conv_lhs => rw [eq_fieldsWord w, mask, fieldsWord_and]
  simp only [BitVec.and_allOnes, Bool.and_false, Bool.and_true, BitVec.and_zero]

/-- A word has the match of OP under the mask exactly when its reserved bits are 0 and it has that OP. -/
theorem and_decodeMask_eq_match_iff (w : Word) (op : BitVec 3) :
    w &&& 0xFF8F0000#32 = fieldsWord 0#9 false false false false op 0#16 ↔
      reservedBitsClear w = true ∧ opField w = op := by
  rw [and_decodeMask, reservedBitsClear_iff]
  constructor
  · intro h
    have high : w.extractLsb' 23 9 = 0#9 := by simpa using congrArg (·.extractLsb' 23 9) h
    have bit19 : w.getLsbD 19 = false := by simpa using congrArg (·.getLsbD 19) h
    have op_eq : opField w = op := by simpa using congrArg opField h
    exact ⟨⟨high, bit19⟩, op_eq⟩
  · rintro ⟨⟨high, bit19⟩, rfl⟩
    rw [high, bit19]

theorem init_match_iff (w : Word) :
    w &&& 0xFF8F0000#32 = 0x00010000#32 ↔ reservedBitsClear w = true ∧ opField w = 0b001#3 :=
  and_decodeMask_eq_match_iff w 0b001#3

theorem movs_match_iff (w : Word) :
    w &&& 0xFF8F0000#32 = 0x00020000#32 ↔ reservedBitsClear w = true ∧ opField w = 0b010#3 :=
  and_decodeMask_eq_match_iff w 0b010#3

theorem rotc_match_iff (w : Word) :
    w &&& 0xFF8F0000#32 = 0x00030000#32 ↔ reservedBitsClear w = true ∧ opField w = 0b011#3 :=
  and_decodeMask_eq_match_iff w 0b011#3

theorem rotw_match_iff (w : Word) :
    w &&& 0xFF8F0000#32 = 0x00040000#32 ↔ reservedBitsClear w = true ∧ opField w = 0b100#3 :=
  and_decodeMask_eq_match_iff w 0b100#3

/-! ## Words that agree under a mask (R84) -/

section AgreeUnderMask
variable {w v mask : Word} (agree : w &&& mask = v &&& mask)
include agree

/-- Agreement under a mask is agreement under every smaller one. -/
theorem and_eq_and_of_submask {small : Word} (sub : mask &&& small = small) : w &&& small = v &&& small := by
  rw [← sub, ← BitVec.and_assoc, agree, BitVec.and_assoc]

/-- A mask that keeps the bits of the decoder's mask keeps the match. -/
theorem match_of_kept (sub : mask &&& 0xFF8F0000#32 = 0xFF8F0000#32) {m : Word} (h : w &&& 0xFF8F0000#32 = m) :
    v &&& 0xFF8F0000#32 = m :=
  (and_eq_and_of_submask agree sub).symm.trans h

theorem getLsbD_eq_of_kept (i : Nat) (kept : mask.getLsbD i = true) : w.getLsbD i = v.getLsbD i := by
  have := congrArg (·.getLsbD i) agree
  simpa only [BitVec.getLsbD_and, kept, Bool.and_true] using this

theorem stepsField_eq_of_kept (kept : stepsField mask = BitVec.allOnes 16) : stepsField w = stepsField v := by
  have := congrArg stepsField agree
  simp only [stepsField, BitVec.extractLsb'_and] at this kept ⊢
  simpa only [kept, BitVec.and_allOnes] using this

end AgreeUnderMask

/-- Two words that decode to the same command agree, and neither is reserved. -/
theorem decodeWord_agree {w v : Word} {i : Instr} (hw : decodeWord w = some i) (hv : decodeWord v = some i) :
    decodeWord v = decodeWord w ∧ (decodeWord v).isSome = true := by
  simp [hw, hv]

/-! ## Admitted accesses (20_memory.md R54) -/

/-- The window has a read at an offset exactly where a readable register is. -/
theorem decodeReadOffset_isSome_iff (o : Offset) :
    (decodeReadOffset o).isSome = true ↔ o = 0x04#5 ∨ o = 0x08#5 ∨ o = 0x0C#5 ∨ o = 0x10#5 ∨ o = 0x14#5 := by
  unfold decodeReadOffset
  repeat' split
  all_goals simp_all

/-- The bytes of the word that four bytes make are those bytes. -/
theorem wordBytes_append (b0 b1 b2 b3 : Byte) : wordBytes (b3 ++ b2 ++ b1 ++ b0) = [b0, b1, b2, b3] := by
  have byte0 : (b3 ++ b2 ++ b1 ++ b0).extractLsb' 0 8 = b0 := BitVec.extractLsb'_append_eq_right
  have byte1 : (b3 ++ b2 ++ b1 ++ b0).extractLsb' 8 8 = b1 := by
    rw [BitVec.extractLsb'_append_eq_of_le (by decide)]
    exact BitVec.extractLsb'_append_eq_right
  have byte2 : (b3 ++ b2 ++ b1 ++ b0).extractLsb' 16 8 = b2 := by
    iterate 2 rw [BitVec.extractLsb'_append_eq_of_le (by decide)]
    exact BitVec.extractLsb'_append_eq_right
  have byte3 : (b3 ++ b2 ++ b1 ++ b0).extractLsb' 24 8 = b3 := by
    iterate 2 rw [BitVec.extractLsb'_append_eq_of_le (by decide)]
    exact BitVec.extractLsb'_append_eq_left
  rw [wordBytes, byte0, byte1, byte2, byte3]

/-- Bytes make a word exactly when they are that word's four bytes. -/
theorem bytesWord_eq_some_iff (data : List Byte) (w : Word) : bytesWord data = some w ↔ data = wordBytes w := by
  refine ⟨fun h => ?_, fun h => h ▸ bytesWord_wordBytes w⟩
  unfold bytesWord at h
  split at h
  · next b0 b1 b2 b3 =>
    rw [← Option.some.inj h]
    exact (wordBytes_append b0 b1 b2 b3).symm
  · cases h

theorem wordBytes_inj {w v : Word} : wordBytes w = wordBytes v ↔ w = v := by
  rw [← bytesWord_eq_some_iff, bytesWord_wordBytes, Option.some.injEq]

/-- Everything the decoder answers to an access: a read of a readable register, a full write to CMD by what its word
decodes to, and every other access unadmitted. -/
theorem decodeAccess_cases (a : Access) :
    (∃ o i, a = .read o 4 ∧ decodeReadOffset o = some i ∧ decodeAccess a = .instr i) ∨
    (∃ w i, a = .write 0x00#5 (wordBytes w) ∧ decodeWord w = some i ∧ decodeAccess a = .instr i) ∨
    (∃ w, a = .write 0x00#5 (wordBytes w) ∧ decodeWord w = none ∧ decodeAccess a = .rejected .reservedCommand) ∨
    ((∀ o, a = .read o 4 → decodeReadOffset o = none) ∧ (∀ w, a ≠ .write 0x00#5 (wordBytes w)) ∧
      decodeAccess a = .rejected .unadmittedAccess) := by
  cases a with
  | read o n =>
    by_cases hn : n = 4
    · subst hn
      cases ho : decodeReadOffset o with
      | some i => exact .inl ⟨o, i, rfl, ho, by simp [decodeAccess, ho]⟩
      | none => exact .inr (.inr (.inr ⟨by simp [ho], by simp, by simp [decodeAccess, ho]⟩))
    · exact .inr (.inr (.inr ⟨by simp [hn], by simp, by simp [decodeAccess, hn]⟩))
  | write o data =>
    by_cases ho : o = 0x00#5
    · subst ho
      cases hd : bytesWord data with
      | some w =>
        cases (bytesWord_eq_some_iff data w).mp hd
        have command : decodeAccess (.write 0x00#5 (wordBytes w)) = decodeCommand w := decodeAccess_writeCommand w
        cases hw : decodeWord w with
        | some i => exact .inr (.inl ⟨w, i, rfl, hw, by simp [command, decodeCommand, hw]⟩)
        | none => exact .inr (.inr (.inl ⟨w, rfl, hw, by simp [command, decodeCommand, hw]⟩))
      | none =>
        exact .inr (.inr (.inr ⟨by simp, by simp [← bytesWord_eq_some_iff, hd], by simp [decodeAccess, hd]⟩))
    · exact .inr (.inr (.inr ⟨by simp, by simp [ho], by simp [decodeAccess, ho]⟩))

namespace Machine

/-- Settles O1: the encoder writes the fields of its command side by side, and the decoder reads the same fields. -/
theorem decodeInvertsTheEncoder : Obligations.DecodeInvertsTheEncoder := by
  refine ⟨fun m => ⟨_, encodeWord_init m, ?_, ?_⟩, fun s d => ⟨_, encodeWord_movs s d, ?_, ?_⟩,
    fun s d => ⟨_, encodeWord_rotc s d, ?_, ?_⟩, fun s v d => ⟨_, encodeWord_rotw s v d, ?_, ?_⟩,
    by decide, by decide, by decide, by decide, by decide, by decide, by decide, by decide⟩
  · simp only [fieldsWord_toNat, BitVec.toNat_ofNat, Bool.toNat_false]
    omega
  · simp [decodeWord_of_op_init]
  · simp only [fieldsWord_toNat, BitVec.toNat_ofNat, Bool.toNat_false]
    omega
  · simp [decodeWord_of_op_movs]
  · simp only [fieldsWord_toNat, BitVec.toNat_ofNat, Bool.toNat_false]
    omega
  · simp [decodeWord_of_op_rotc]
  · simp only [fieldsWord_toNat, BitVec.toNat_ofNat, Bool.toNat_false]
    omega
  · simp [decodeWord_of_op_rotw]

/-- Settles O3: a match under the mask is clear reserved bits and the command's OP, which is what the decoder checks. -/
theorem decodeFollowsTheMatches : Obligations.DecodeFollowsTheMatches := by
  intro w
  rw [← stepsField_eq_ofNat]
  simp only [init_match_iff, movs_match_iff, rotc_match_iff, rotw_match_iff]
  cases clear : reservedBitsClear w with
  | false => simp [decodeWord, clear]
  | true => simp [decodeWord, clear, Mode.ofBit, Dir.ofBit, Rotation.ofBit, Wheel.ofBit]

/-- Settles O5: each command's mask keeps the decoder's mask, so the second word has the same match, and keeps every
field that command reads. -/
theorem ignoredFieldsHaveNoEffect : Obligations.IgnoredFieldsHaveNoEffect := by
  intro w v
  refine ⟨fun init agree => ?_, fun command agree => ?_, fun rotw agree => ?_⟩
  · have hw := decodeWord_of_op_init ((init_match_iff w).mp init)
    have hv := decodeWord_of_op_init ((init_match_iff v).mp (match_of_kept agree (by decide) init))
    rw [getLsbD_eq_of_kept agree 22 (by decide)] at hw
    exact decodeWord_agree hw hv
  · rcases command with movs | rotc
    · have hw := decodeWord_of_op_movs ((movs_match_iff w).mp movs)
      have hv := decodeWord_of_op_movs ((movs_match_iff v).mp (match_of_kept agree (by decide) movs))
      rw [stepsField_eq_of_kept agree (by decide), getLsbD_eq_of_kept agree 20 (by decide)] at hw
      exact decodeWord_agree hw hv
    · have hw := decodeWord_of_op_rotc ((rotc_match_iff w).mp rotc)
      have hv := decodeWord_of_op_rotc ((rotc_match_iff v).mp (match_of_kept agree (by decide) rotc))
      rw [stepsField_eq_of_kept agree (by decide), getLsbD_eq_of_kept agree 20 (by decide)] at hw
      exact decodeWord_agree hw hv
  · have hw := decodeWord_of_op_rotw ((rotw_match_iff w).mp rotw)
    have hv := decodeWord_of_op_rotw ((rotw_match_iff v).mp (match_of_kept agree (by decide) rotw))
    rw [stepsField_eq_of_kept agree (by decide), getLsbD_eq_of_kept agree 21 (by decide),
      getLsbD_eq_of_kept agree 20 (by decide)] at hw
    exact decodeWord_agree hw hv

/-- Settles O7: for each of the decoder's answers, what it says of the access decides both equivalences. -/
theorem admittedAccessesExactly : Obligations.AdmittedAccessesExactly := by
  intro a
  simp only [← decodeReadOffset_isSome_iff]
  rcases decodeAccess_cases a with ⟨o, i, rfl, ho, read⟩ | ⟨w, i, rfl, hw, write⟩ | ⟨w, rfl, hw, reserved⟩ |
    ⟨notRead, notWrite, rejected⟩
  · simp [read, ho]
  · simp [write, wordBytes_inj, hw]
  · simp [reserved, wordBytes_inj, hw]
  · simp +contextual [rejected, notRead, notWrite]

end Machine

end Sys2Proof
end

section
/-! PROOFS. 40_host_commands.md sections 1 to 3: INIT (R100, R101), what every move command does through MoveCore
(R105, R109 to R111), and the reads of the two counts (R116, R117). -/

namespace Sys2Proof

/-! ## INIT (R100, R101) -/

/-- Halving an entry of the table in 32 bits is halving the number: the entry fits the word. -/
theorem Config.entry_div_two (c : Config) {i : Nat} (h : i < c.n) :
    c.entry i / 2#32 = BitVec.ofNat 32 (c.params.entry i / 2) := by
  have fits := c.entry_lt_word h
  have two : (2#32).toNat = 2 := rfl
  apply BitVec.eq_of_toNat_eq
  rw [BitVec.toNat_udiv, c.entry_toNat h, two, BitVec.toNat_ofNat]
  omega

namespace Machine

theorem initDirs_eq (c : Config) (m : Mode) :
    initDirs c m = if m = .full then c.params.initDirFull else c.params.initDirHalf := by
  cases m <;> rfl

/-- INIT writes every register, so nothing of the block before is left (R101). -/
theorem Block.init_eq_init (c : Config) (m : Mode) (b b' : Block) : Block.init c m b = Block.init c m b' := rfl

/-- INIT replaces the block, and nothing else. -/
theorem exec_init (m : Mode) (s : State) :
    exec (.init m) s = .next (s.withBlock (Block.init s.config m s.block)) := rfl

/-- Settles O21: the table's first entry is halved as a number, and in CFG-A every register is a literal. -/
theorem initWritesEveryRegister : Obligations.InitWritesEveryRegister := by
  refine ⟨fun s m => ?_, fun s cfgA => ?_⟩
  · have halved := s.config.entry_div_two s.config.n_pos
    rw [exec_init, Block.init, Block.setPeriod, halved, initDirs_eq]
    rfl
  · refine ⟨_, exec_init .full s, ?_⟩
    rw [State.withBlock_block, cfgA, Block.init_eq_init _ _ s.block (Block.reset Config.cfgA)]
    decide

/-- Settles O22: INIT's result is the same from every block. -/
theorem initIsIdempotent : Obligations.InitIsIdempotent := by
  intro s m
  refine ⟨_, exec_init m s, exec_init m _, fun s' sameConfig => ⟨_, exec_init m s', ?_⟩⟩
  rw [State.withBlock_block, State.withBlock_block, sameConfig]
  exact Block.init_eq_init s.config m s'.block s.block

/-! ## Move commands (R105) -/

theorem runningAfterMove_eq_decide (n : Count) : runningAfterMove n = decide (n ≠ 0#16) := by
  rw [Bool.eq_iff_iff, runningAfterMove_eq_true_iff, decide_eq_true_iff]

/-- A wheel masked out leaves the other. -/
theorem wheelMask_ne_zero (w : Wheel) : wheelMask w ≠ 0b00#2 := by
  cases w <;> decide

theorem wheelMask_eq (w : Wheel) : wheelMask w = if w = .left then 0b10#2 else 0b01#2 := by
  cases w <;> rfl

/-- A move command is MoveCore in every state, with operands the command alone gives. -/
theorem exec_of_moveSteps {i : Instr} {n : Count} (h : moveSteps i = some n) :
    ∃ o : MoveOperands, o.steps = n ∧ o.mask ≠ 0b00#2 ∧ ∀ s, exec i s = .next (hostMove o s) := by
  have both_motors : 0b11#2 ≠ 0b00#2 := by decide
  cases i with
  | movs k d =>
    cases h
    exact ⟨movsOperands n d, rfl, both_motors, fun s => rfl⟩
  | rotc k d =>
    cases h
    exact ⟨rotcOperands n d, rfl, both_motors, fun s => rfl⟩
  | rotw k w d =>
    cases h
    exact ⟨rotwOperands n w d, rfl, wheelMask_ne_zero w, fun s => rfl⟩
  | cancel d =>
    cases h
    exact ⟨movsOperands 0#16 d, rfl, both_motors, fun s => rfl⟩
  | init | rdstat | rdrem | rdtaken | rdper | rdhalf | tick | waitstop => cases h

/-- Settles O27: the operands of the command are the mask and the direction lines asked for. -/
theorem moveCommandsPerformMoveCore : Obligations.MoveCommandsPerformMoveCore := by
  intro i n move
  obtain ⟨o, rfl, mask_ne_zero, exec_eq⟩ := exec_of_moveSteps move
  refine ⟨o.mask, o.dirL, o.dirR, mask_ne_zero, fun s => ?_⟩
  rw [exec_eq, hostMove, Block.move, runningAfterMove_eq_decide]
  rfl

/-- MoveCore keeps these four registers and overwrites the others (R109). -/
theorem Block.move_congr (o : MoveOperands) {b b' : Block} (mode : b.mode = b'.mode) (period : b.period = b'.period)
    (halfPeriod : b.halfPeriod = b'.halfPeriod) (rampStage : b.rampStage = b'.rampStage) : b.move o = b'.move o := by
  simp only [Block.move, mode, period, halfPeriod, rampStage]

/-- Settles O28: the command is the same MoveCore in both states. -/
theorem preemptionLeaksNothing : Obligations.PreemptionLeaksNothing := by
  intro i n s s' move mode period halfPeriod rampStage
  obtain ⟨o, rfl, -, exec_eq⟩ := exec_of_moveSteps move
  exact ⟨hostMove o s, hostMove o s', exec_eq s, exec_eq s', Block.move_congr o mode period halfPeriod rampStage,
    rfl, rfl, rfl⟩

/-! ## TICK after a move command (R110, R111) -/

theorem exec_tick_of_running {s : State} (h : s.block.running = true) :
    exec .tick s = .next (s.withBlock (Block.tick s.config s.block)) := if_pos h

theorem not_exec_tick_of_not_running {s : State} (h : s.block.running = false) : ¬ ∃ u, exec .tick s = .next u := by
  rintro ⟨u, tick⟩
  obtain ⟨running, -⟩ := execTick_next tick
  rw [h] at running
  cases running

/-- MoveCore with no steps clears RUNNING, and then TIMER has no step (R110). -/
theorem hostMove_stops {o : MoveOperands} (h : o.steps = 0#16) (s : State) :
    (hostMove o s).block.running = false ∧ ¬ ∃ u, exec .tick (hostMove o s) = .next u := by
  have stopped : (hostMove o s).block.running = false := (runningAfterMove_eq_false_iff o.steps).mpr h
  exact ⟨stopped, not_exec_tick_of_not_running stopped⟩

/-- Settles O29: MOVS, ROTC and ROTW differ in mask and direction lines only, and no steps stops each. -/
theorem zeroStepMoveStops : Obligations.ZeroStepMoveStops := by
  intro s
  refine ⟨fun d => ?_, fun d => ?_, fun w d => ?_⟩
  · obtain ⟨stopped, noTick⟩ := hostMove_stops (o := movsOperands 0#16 d) rfl s
    exact ⟨_, rfl, stopped, rfl, rfl, rfl, rfl, rfl, rfl, noTick⟩
  · obtain ⟨stopped, noTick⟩ := hostMove_stops (o := rotcOperands 0#16 d) rfl s
    exact ⟨_, rfl, stopped, rfl, rfl, rfl, rfl, rfl, rfl, noTick⟩
  · obtain ⟨stopped, noTick⟩ := hostMove_stops (o := rotwOperands 0#16 w d) rfl s
    exact ⟨_, rfl, stopped, rfl, rfl, rfl, rfl, rfl, wheelMask_eq w, noTick⟩

/-- The first TICK after MoveCore with steps is a leading edge, which takes one of the steps. -/
theorem exec_tick_hostMove {o : MoveOperands} (h : o.steps ≠ 0#16) (s : State) :
    ∃ u, exec .tick (hostMove o s) = .next u ∧ u.block.stepsRemaining = o.steps - 1#16 ∧
      u.block.stepsTaken = 1#16 := by
  have running : (hostMove o s).block.running = true := (runningAfterMove_eq_true_iff o.steps).mpr h
  refine ⟨_, exec_tick_of_running running, ?_⟩
  have edge : Block.tick (hostMove o s).config (hostMove o s).block = Block.ramp _ (s.block.move o).rise :=
    Block.tick_of_rise _ h rfl
  rw [State.withBlock_block, edge]
  simp

/-- Settles O30: the TICK counts a step taken, and MoveCore written again clears the count. -/
theorem repeatedMoveRestarts : Obligations.RepeatedMoveRestarts := by
  intro i n s move steps_ne_zero
  obtain ⟨o, rfl, -, exec_eq⟩ := exec_of_moveSteps move
  obtain ⟨u, tick, -, taken⟩ := exec_tick_hostMove steps_ne_zero s
  have running : (hostMove o u).block.running = true := (runningAfterMove_eq_true_iff o.steps).mpr steps_ne_zero
  refine ⟨hostMove o s, u, hostMove o u, exec_eq s, tick, taken, exec_eq u, rfl, rfl, running, rfl, ?_⟩
  intro same
  have cleared : u.block.stepsTaken = 0#16 := by rw [same]; rfl
  rw [taken] at cleared
  exact absurd cleared (by decide)

/-! ## Reads of the counts (R116, R117) -/

/-- RDREM returns STEPS_REMAINING, the upper half of the word 0. -/
theorem exec_rdrem (s : State) :
    exec .rdrem s = .next { s with readLog := s.block.stepsRemaining.setWidth 32 :: s.readLog } := rfl

/-- RDTAKEN returns STEPS_TAKEN, the upper half of the word 0. -/
theorem exec_rdtaken (s : State) :
    exec .rdtaken s = .next { s with readLog := s.block.stepsTaken.setWidth 32 :: s.readLog } := rfl

/-- Settles O32: zero-extension is the same number in 32 bits; the first TICK of `MOVS #7` takes one step. -/
theorem countReadsReturnTheCounts : Obligations.CountReadsReturnTheCounts := by
  refine ⟨fun s => ?_, fun s => ?_, fun s => ?_⟩
  · rw [exec_rdrem, BitVec.ofNat_toNat]
  · rw [exec_rdtaken, BitVec.ofNat_toNat]
  · obtain ⟨u, tick, remaining, taken⟩ := exec_tick_hostMove (o := movsOperands 7#16 .fwd) (by decide) s
    refine ⟨hostMove (movsOperands 7#16 .fwd) s, u, _, _, _, _, rfl, tick, exec_rdrem _, rfl, exec_rdtaken _, rfl,
      exec_rdrem u, ?_, exec_rdtaken u, ?_⟩
    · rw [remaining]
      rfl
    · rw [taken]
      rfl

end Machine

end Sys2Proof
end

section
/-! PROOFS. 41_tick_fsm.md: what each stage of TICK writes (R142 to R146), and the laws of a whole move (R148 to R152)
from what the block holds after each TICK of it. -/

namespace Sys2Proof

namespace Machine

/-! ## The stop and the trailing edge (R142, R143) -/

/-- Bit 4 of STATUS is PULSE_L (20_memory.md R52). -/
theorem Block.status_bit4 (b : Block) : b.status[4] = b.pulseL := by
  rw [Block.status, BitVec.getElem_append]
  simp only [BitVec.getElem_append, BitVec.getElem_ofBool, Nat.reduceLT, Nat.reduceSub, ↓reduceDIte]

/-- Bit 5 of STATUS is PULSE_R (20_memory.md R52). -/
theorem Block.status_bit5 (b : Block) : b.status[5] = b.pulseR := by
  rw [Block.status, BitVec.getElem_append]
  simp only [BitVec.getElem_append, BitVec.getElem_ofBool, Nat.reduceLT, Nat.reduceSub, ↓reduceDIte]

/-- The stop guard takes the bit of RUNNING from STATUS. -/
theorem Block.status_toNat_eq_stop (b : Block) : b.status.toNat = b.stop.status.toNat + b.running.toNat := by
  simp only [Block.status_toNat, Block.stop, Bool.toNat_false]
  omega

/-- The trailing edge takes the bits of PULSE_PHASE and of both lines from STATUS. -/
theorem Block.status_toNat_eq_fall (b : Block) :
    b.status.toNat =
      b.fall.status.toNat + 2 * b.pulsePhase.bit.toNat + 16 * b.pulseL.toNat + 32 * b.pulseR.toNat := by
  simp only [Block.status_toNat, Block.fall, PulsePhase.bit, Bool.toNat_false]
  omega

/-- Settles O36: with no steps left the stop guard runs, and running with no steps left is FINAL by R36. -/
theorem tickStopsAtZero : Obligations.TickStopsAtZero := by
  intro s running none_left
  refine ⟨?_, fun inv => ?_, fun status => ?_⟩
  · rw [exec_tick_of_running running, Block.tick_of_stop _ none_left]
    rfl
  · have high := inv.lastStepIsHigh running none_left
    simp [controlClass, running, none_left, high]
  · have stopped := s.block.status_toNat_eq_stop
    rw [status, running] at stopped
    exact BitVec.eq_of_toNat_eq (Nat.succ.inj stopped.symm)

/-- Settles O37: with steps left and the pulse High the trailing edge runs; by R37 an unmasked line was 0. In the
example the number of STATUS has the bits of both lines, so 2 + 16 + 32 is taken from it. -/
theorem tickMakesTheTrailingEdge : Obligations.TickMakesTheTrailingEdge := by
  intro s running left high
  refine ⟨s.withBlock s.block.fall, ?_, rfl, fun inv => ?_, fun status => ?_⟩
  · rw [exec_tick_of_running running, Block.tick_of_fall _ left high]
  · obtain ⟨lineL, lineR⟩ := inv.linesFollowPhase
    exact ⟨fun unmasked => by rw [lineL, unmasked, Bool.and_false],
      fun unmasked => by rw [lineR, unmasked, Bool.and_false]⟩
  · have lineL : s.block.pulseL = true := by
      rw [← Block.status_bit4, status]
      rfl
    have lineR : s.block.pulseR = true := by
      rw [← Block.status_bit5, status]
      rfl
    have fallen := s.block.status_toNat_eq_fall
    rw [status, high, lineL, lineR] at fallen
    exact BitVec.eq_of_toNat_eq (Nat.add_right_cancel (m := 2 + 16 + 32) fallen.symm)

/-! ## The leading edge and the ramp (R144 to R146) -/

section LeadingEdge
variable {b : Block} (left : b.stepsRemaining ≠ 0#16)
include left

theorem Block.rise_stepsRemaining_toNat : b.rise.stepsRemaining.toNat = b.stepsRemaining.toNat - 1 := by
  rw [Block.rise_stepsRemaining]
  bv_omega

variable (fits : CountsFitTarget b)
include fits

/-- STEPS_TAKEN does not wrap where the counts fit a TARGET with a step of it left (R147). -/
theorem Block.rise_stepsTaken_toNat : b.rise.stepsTaken.toNat = b.stepsTaken.toNat + 1 := by
  rw [Block.rise_stepsTaken]
  unfold CountsFitTarget at fits
  bv_omega

theorem Block.rise_boundary :
    b.rise.boundary = min (b.stepsTaken.toNat + 1) (b.stepsRemaining.toNat - 1) := by
  rw [Block.boundary, Block.rise_stepsTaken_toNat left fits, Block.rise_stepsRemaining_toNat left]

end LeadingEdge

/-- RAMP_STAGE holds every index of the table without loss (R147). -/
theorem rampStageOf_toNat (c : Config) (boundary : Nat) :
    (BitVec.ofNat 8 (rampStageOf c boundary)).toNat = rampStageOf c boundary := by
  have := rampStageOf_lt c boundary
  have := c.n_le
  rw [BitVec.toNat_ofNat]
  exact Nat.mod_eq_of_lt (by omega)

/-- Below RAMP_DURATION = N * RAMP_INTERVAL the clamp changes nothing. -/
theorem rampStageOf_of_lt_duration (c : Config) {boundary : Nat} (h : boundary < c.duration) :
    rampStageOf c boundary = boundary / c.interval := by
  rw [c.duration_eq] at h
  exact Nat.min_eq_left (Nat.le_sub_one_of_lt (Nat.div_lt_of_lt_mul (Nat.mul_comm c.n _ ▸ h)))

/-- The last stage begins one interval before RAMP_DURATION. -/
theorem rampStageOf_of_cruise (c : Config) {boundary : Nat} (h : c.duration - c.interval ≤ boundary) :
    rampStageOf c boundary = c.n - 1 := by
  rw [c.duration_eq, ← Nat.sub_one_mul] at h
  exact Nat.min_eq_right ((Nat.le_div_iff_mul_le c.interval_pos).mpr h)

/-- The leading edge with the ramp's condition moved to the two registers it decides. -/
theorem Block.ramp_rise_eq (c : Config) (b : Block) :
    Block.ramp c b.rise =
      { b with
        pulseL := b.phaseMask.getLsbD 0
        pulseR := b.phaseMask.getLsbD 1
        pulsePhase := .high
        stepsRemaining := b.rise.stepsRemaining
        stepsTaken := b.rise.stepsTaken
        rampStage := BitVec.ofNat 8 (rampStageOf c b.rise.boundary)
        period := if b.rise.boundary < c.duration then c.entry (rampStageOf c b.rise.boundary) else b.period
        halfPeriod :=
          if b.rise.boundary < c.duration then c.entry (rampStageOf c b.rise.boundary) / 2#32
          else b.halfPeriod } := by
  unfold Block.ramp
  split <;> rfl

/-- Settles O38: with steps left and the pulse Low the leading edge runs; where the counts fit a TARGET its counts
and its boundary are the naturals of the rules. -/
theorem tickMakesTheLeadingEdge : Obligations.TickMakesTheLeadingEdge := by
  intro s running left low fits p b stage
  have boundary : s.block.rise.boundary = b := Block.rise_boundary left fits
  have remaining : s.block.rise.stepsRemaining = BitVec.ofNat 16 (s.block.stepsRemaining.toNat - 1) := by
    rw [← Block.rise_stepsRemaining_toNat left, BitVec.ofNat_toNat, BitVec.setWidth_eq]
  have taken : s.block.rise.stepsTaken = BitVec.ofNat 16 (s.block.stepsTaken.toNat + 1) := by
    rw [← Block.rise_stepsTaken_toNat left fits, BitVec.ofNat_toNat, BitVec.setWidth_eq]
  refine ⟨by omega, rampStageOf_of_lt_duration s.config,
    s.withBlock (Block.ramp s.config s.block.rise), ?_, ?_, ?_, ?_, ?_, ?_⟩
  · rw [exec_tick_of_running running, Block.tick_of_rise _ left low]
  · intro _ mask t0 r3
    simp [mask, t0, r3]
  · intro cfgA t6 r14
    have seven : s.block.rise.boundary = 7 := by simp [boundary, b, t6, r14]
    rw [State.withBlock_block, Block.ramp_rampStage, cfgA, seven]
    decide
  · intro cfgA t1 r19
    have two : s.block.rise.boundary = 2 := by simp [boundary, b, t1, r19]
    have below : 2 < Config.cfgA.duration := by decide
    rw [State.withBlock_block, Block.ramp_rampStage, Block.ramp_period, Block.ramp_halfPeriod, cfgA, two, if_pos below,
      if_pos below]
    decide
  · intro cfgA t9 r11 p100
    have ten : s.block.rise.boundary = 10 := by simp [boundary, b, t9, r11]
    have past : ¬ 10 < Config.cfgA.duration := by decide
    rw [State.withBlock_block, Block.ramp_period, cfgA, ten, if_neg past, Block.rise_period, p100]
  · have halved := s.config.entry_div_two (rampStageOf_lt s.config b)
    rw [Block.ramp_rise_eq, boundary, remaining, taken, halved]
    rfl

/-! ## The ramp of a move (41_tick_fsm.md section 5) -/

theorem moveStage_eq_rampStageOf (c : Config) (s k : Nat) : moveStage c s k = rampStageOf c (min k (s - k)) := rfl

/-- stage(k) reads the same from both ends of the move. -/
theorem movePeriod_sub (c : Config) {s k : Nat} (h : k ≤ s) : movePeriod c s (s - k) = movePeriod c s k := by
  rw [movePeriod, movePeriod, moveStage, moveStage, Nat.sub_sub_self h, Nat.min_comm k]

theorem movePeriod_zero (c : Config) (s : Nat) : movePeriod c s 0 = c.entry 0 := by
  simp [movePeriod, moveStage]

theorem movePeriod_of_cruise (c : Config) {s k : Nat} (h : c.duration - c.interval ≤ min k (s - k)) :
    movePeriod c s k = c.entry (c.n - 1) := by
  rw [movePeriod, moveStage_eq_rampStageOf, rampStageOf_of_cruise c h]

/-- A table of one entry has no other for PERIOD. -/
theorem period_eq_entry_zero {c : Config} {b : Block} (fromTable : PeriodFromTable c b) (one : c.n = 1) :
    b.period = c.entry 0 := by
  obtain ⟨⟨j, hj, period⟩, -⟩ := fromTable
  rw [period, show j = 0 by omega]

/-- A ramp of at most one interval has one entry. -/
theorem n_eq_one_of_duration_le_interval {c : Config} (h : c.duration ≤ c.interval) : c.n = 1 := by
  rw [c.duration_eq] at h
  exact Nat.le_antisymm (Nat.le_of_mul_le_mul_right (by omega) c.interval_pos) c.n_pos

/-! ## The block during a move (R149) -/

/-- The block inside a move with the operands `o`: RUNNING, `k` steps counted and the rest of them left, and the pulse
in the phase given. -/
structure MidMove (o : MoveOperands) (k : Nat) (phase : PulsePhase) (b : Block) : Prop where
  running          : b.running = true
  pulsePhase       : b.pulsePhase = phase
  stepsTaken       : b.stepsTaken.toNat = k
  countsAddUp      : b.stepsTaken.toNat + b.stepsRemaining.toNat = o.steps.toNat
  phaseMask        : b.phaseMask = o.mask
  linesFollowPhase : LinesFollowPhase b

section MidMove
variable {o : MoveOperands} {k : Nat} {phase : PulsePhase} {b : Block} {c : Config}

theorem MidMove.stepsRemaining_toNat (h : MidMove o k phase b) : b.stepsRemaining.toNat = o.steps.toNat - k := by
  have := h.stepsTaken
  have := h.countsAddUp
  omega

theorem MidMove.stepsRemaining_eq_zero (h : MidMove o o.steps.toNat phase b) : b.stepsRemaining = 0#16 :=
  BitVec.eq_of_toNat_eq (by simp [h.stepsRemaining_toNat])

theorem MidMove.stepsRemaining_ne_zero (h : MidMove o k phase b) (more : k < o.steps.toNat) :
    b.stepsRemaining ≠ 0#16 := by
  intro zero
  have := h.stepsRemaining_toNat
  rw [zero, BitVec.toNat_ofNat] at this
  omega

theorem MidMove.countsFitTarget (h : MidMove o k phase b) : CountsFitTarget b := by
  have := h.countsAddUp
  have := o.steps.isLt
  unfold CountsFitTarget
  omega

theorem MidMove.tick_eq_fall (h : MidMove o k .high b) (more : k < o.steps.toNat) : Block.tick c b = b.fall :=
  Block.tick_of_fall c (h.stepsRemaining_ne_zero more) h.pulsePhase

theorem MidMove.tick_eq_ramp_rise (h : MidMove o k .low b) (more : k < o.steps.toNat) :
    Block.tick c b = Block.ramp c b.rise :=
  Block.tick_of_rise c (h.stepsRemaining_ne_zero more) h.pulsePhase

/-- The boundary of step k + 1 is min(k + 1, s - (k + 1)). -/
theorem MidMove.rise_boundary (h : MidMove o k .low b) (more : k < o.steps.toNat) :
    b.rise.boundary = min (k + 1) (o.steps.toNat - (k + 1)) := by
  rw [Block.rise_boundary (h.stepsRemaining_ne_zero more) h.countsFitTarget, h.stepsTaken, h.stepsRemaining_toNat,
    Nat.sub_sub]

/-- R37 during a move, whose mask is the command's. -/
theorem MidMove.lines (h : MidMove o k phase b) :
    b.pulseL = (phase.bit && o.mask.getLsbD 0) ∧ b.pulseR = (phase.bit && o.mask.getLsbD 1) := by
  have follow := h.linesFollowPhase
  rwa [LinesFollowPhase, h.pulsePhase, h.phaseMask] at follow

/-- MoveCore with steps to take begins a move, whatever the block held. -/
theorem midMove_move (b : Block) (some_steps : 0 < o.steps.toNat) : MidMove o 0 .low (b.move o) where
  running := (runningAfterMove_eq_true_iff o.steps).mpr fun zero => by simp [zero] at some_steps
  pulsePhase := rfl
  stepsTaken := rfl
  countsAddUp := Nat.zero_add _
  phaseMask := rfl
  linesFollowPhase := ⟨rfl, rfl⟩

/-- The leading edge counts a step. -/
theorem MidMove.tick_low (h : MidMove o k .low b) (more : k < o.steps.toNat) :
    MidMove o (k + 1) .high (Block.tick c b) := by
  have left := h.stepsRemaining_ne_zero more
  have taken := Block.rise_stepsTaken_toNat left h.countsFitTarget
  have remaining := Block.rise_stepsRemaining_toNat left
  rw [h.stepsTaken] at taken
  rw [h.stepsRemaining_toNat] at remaining
  rw [h.tick_eq_ramp_rise more]
  exact {
    running := by simp [h.running]
    pulsePhase := by simp
    stepsTaken := by rw [Block.ramp_stepsTaken, taken]
    countsAddUp := by
      rw [Block.ramp_stepsTaken, Block.ramp_stepsRemaining, taken, remaining]
      omega
    phaseMask := by simp [h.phaseMask]
    linesFollowPhase := by simp [LinesFollowPhase, PulsePhase.bit] }

/-- The trailing edge counts none. -/
theorem MidMove.tick_high (h : MidMove o k .high b) (more : k < o.steps.toNat) :
    MidMove o k .low (Block.tick c b) := by
  rw [h.tick_eq_fall more]
  exact {
    running := h.running
    pulsePhase := rfl
    stepsTaken := h.stepsTaken
    countsAddUp := h.countsAddUp
    phaseMask := h.phaseMask
    linesFollowPhase := ⟨rfl, rfl⟩ }

/-- Step k + 1 sets RAMP_STAGE to stage(k + 1). -/
theorem MidMove.tick_low_rampStage (h : MidMove o k .low b) (more : k < o.steps.toNat) :
    (Block.tick c b).rampStage.toNat = moveStage c o.steps.toNat (k + 1) := by
  rw [h.tick_eq_ramp_rise more, Block.ramp_rampStage, rampStageOf_toNat, h.rise_boundary more,
    moveStage_eq_rampStageOf]

/-- Step k + 1 leaves RAMP_TABLE[stage(k + 1)] in PERIOD: below RAMP_DURATION it writes that entry, and from
RAMP_DURATION on it needs the cruise entry to be there already. -/
theorem MidMove.tick_low_period (h : MidMove o k .low b) (more : k < o.steps.toNat)
    (cruising : c.duration ≤ min (k + 1) (o.steps.toNat - (k + 1)) → b.period = c.entry (c.n - 1)) :
    (Block.tick c b).period = movePeriod c o.steps.toNat (k + 1) := by
  rw [h.tick_eq_ramp_rise more, Block.ramp_period, h.rise_boundary more]
  split
  · rfl
  · next cruise =>
    rw [Block.rise_period, cruising (by omega), movePeriod_of_cruise c (by omega)]

end MidMove

/-! ## The TICKs of a move, one after the other -/

/-- The block after a move command with the operands `o` and then `j` TICKs. -/
def Block.moveTicks (c : Config) (o : MoveOperands) (b : Block) (j : Nat) : Block := (Block.tick c)^[j] (b.move o)

section MoveTicks
variable (c : Config) (o : MoveOperands) (b : Block)

theorem Block.moveTicks_zero : Block.moveTicks c o b 0 = b.move o := rfl

theorem Block.moveTicks_succ (j : Nat) :
    Block.moveTicks c o b (j + 1) = Block.tick c (Block.moveTicks c o b j) :=
  Function.iterate_succ_apply' (Block.tick c) j (b.move o)

/-- After TICK 2k, with steps left, the pulse is Low and k steps are taken. -/
theorem midMove_low {k : Nat} (h : k < o.steps.toNat) : MidMove o k .low (Block.moveTicks c o b (2 * k)) := by
  induction k with
  | zero => exact midMove_move b h
  | succ k ih =>
    have low := ih (Nat.lt_of_succ_lt h)
    rw [Nat.mul_succ, Block.moveTicks_succ, Block.moveTicks_succ]
    exact (low.tick_low (Nat.lt_of_succ_lt h)).tick_high h

/-- After TICK 2k + 1 the pulse is High and k + 1 steps are taken. -/
theorem midMove_high {k : Nat} (h : k < o.steps.toNat) :
    MidMove o (k + 1) .high (Block.moveTicks c o b (2 * k + 1)) := by
  rw [Block.moveTicks_succ]
  exact (midMove_low c o b h).tick_low h

/-- TICK 2s of a move of s >= 1 steps is the stop. -/
theorem Block.moveTicks_last {k : Nat} (h : o.steps.toNat = k + 1) :
    Block.moveTicks c o b (2 * o.steps.toNat) = (Block.moveTicks c o b (2 * k + 1)).stop := by
  have high : MidMove o o.steps.toNat .high (Block.moveTicks c o b (2 * k + 1)) := by
    rw [h]
    exact midMove_high c o b (by omega)
  rw [h, Nat.mul_succ, Block.moveTicks_succ, Block.tick_of_stop c high.stepsRemaining_eq_zero]

/-- RUNNING is 1 before each of the 2s TICKs. -/
theorem Block.moveTicks_running {j : Nat} (h : j < 2 * o.steps.toNat) :
    (Block.moveTicks c o b j).running = true := by
  rcases Nat.even_or_odd' j with ⟨k, rfl | rfl⟩
  · exact (midMove_low c o b (by omega)).running
  · exact (midMove_high c o b (by omega)).running

/-- The block after all 2s TICKs, and after none where s = 0. -/
theorem Block.moveTicks_stopped :
    (Block.moveTicks c o b (2 * o.steps.toNat)).running = false ∧
      (Block.moveTicks c o b (2 * o.steps.toNat)).stepsRemaining = 0#16 ∧
      (Block.moveTicks c o b (2 * o.steps.toNat)).stepsTaken = o.steps := by
  cases h : o.steps.toNat with
  | zero =>
    have zero : o.steps = 0#16 := BitVec.eq_of_toNat_eq h
    rw [Block.moveTicks_zero]
    simp [zero, runningAfterMove]
  | succ k =>
    have high := midMove_high c o b (k := k) (by omega)
    rw [← h] at high
    rw [← h, Block.moveTicks_last c o b h]
    exact ⟨rfl, high.stepsRemaining_eq_zero, BitVec.eq_of_toNat_eq high.stepsTaken⟩

/-- After each odd TICK and after the stop the masked lines are as the pulse High has them, and otherwise as Low. -/
theorem Block.moveTicks_lines {j : Nat} (h : j ≤ 2 * o.steps.toNat) :
    ∃ phase : PulsePhase, (phase = .high ↔ j % 2 = 1 ∨ (j = 2 * o.steps.toNat ∧ o.steps ≠ 0#16)) ∧
      (Block.moveTicks c o b j).pulseL = (phase.bit && o.mask.getLsbD 0) ∧
      (Block.moveTicks c o b j).pulseR = (phase.bit && o.mask.getLsbD 1) := by
  rcases Nat.even_or_odd' j with ⟨k, rfl | rfl⟩
  · rcases Nat.lt_or_ge k o.steps.toNat with more | all
    · exact ⟨.low, by simp [more.ne], (midMove_low c o b more).lines⟩
    · obtain rfl : k = o.steps.toNat := by omega
      cases hs : o.steps.toNat with
      | zero =>
        have zero : o.steps = 0#16 := BitVec.eq_of_toNat_eq hs
        exact ⟨.low, by simp [zero], rfl, rfl⟩
      | succ k =>
        have some_steps : o.steps ≠ 0#16 := fun zero => by simp [zero] at hs
        rw [← hs, Block.moveTicks_last c o b hs]
        exact ⟨.high, by simp [some_steps], (midMove_high c o b (by omega)).lines⟩
  · exact ⟨.high, by simp [Nat.add_mod], (midMove_high c o b (by omega)).lines⟩

/-- The trailing edge keeps the PERIOD of the step before it. -/
theorem Block.moveTicks_period_even {k : Nat} (h : k + 1 < o.steps.toNat) :
    (Block.moveTicks c o b (2 * (k + 1))).period = (Block.moveTicks c o b (2 * k + 1)).period := by
  have high := midMove_high c o b (Nat.lt_of_succ_lt h)
  rw [Nat.mul_succ, Block.moveTicks_succ, high.tick_eq_fall h, Block.fall_period]

variable {b} (fromTable : PeriodFromTable c b)
include fromTable

/-- R148 by induction on the step: where step k + 1 writes no PERIOD, step k was at most one short of RAMP_DURATION, in
the last interval of the ramp, and the command itself found the only entry of the table. -/
theorem Block.moveTicks_period_odd {k : Nat} (h : k < o.steps.toNat) :
    (Block.moveTicks c o b (2 * k + 1)).period = movePeriod c o.steps.toNat (k + 1) := by
  rw [Block.moveTicks_succ]
  induction k with
  | zero =>
    refine (midMove_low c o b h).tick_low_period h fun cruise => ?_
    have one : c.n = 1 := n_eq_one_of_duration_le_interval (by have := c.interval_pos; omega)
    rw [one]
    exact period_eq_entry_zero fromTable one
  | succ k ih =>
    refine (midMove_low c o b h).tick_low_period h fun cruise => ?_
    have := c.interval_pos
    rw [Block.moveTicks_period_even c o b h, Block.moveTicks_succ, ih (Nat.lt_of_succ_lt h),
      movePeriod_of_cruise c (by omega)]

/-- The period of step k, step 0 being the command, which leaves the PERIOD it finds. -/
theorem Block.moveTicks_period {k : Nat} (h : k ≤ o.steps.toNat) (found : k = 0 → b.period = c.entry 0) :
    (Block.moveTicks c o b (2 * k - 1)).period = movePeriod c o.steps.toNat k := by
  cases k with
  | zero => rw [movePeriod_zero, ← found rfl]; rfl
  | succ k => exact Block.moveTicks_period_odd c o fromTable h

end MoveTicks

/-! ## A move as a run of the machine -/

/-- With nothing issued, a running machine takes a TICK. -/
theorem step_of_alone {s : State} (alone : s.inputs = []) (running : s.block.running = true) :
    step s = .next (s.withBlock (Block.tick s.config s.block)) := by
  rw [step, arbitrate, alone, running]
  exact exec_tick_of_running running

/-- With nothing issued, a run of up to 2s steps from a move command of s steps is that many TICKs. -/
theorem run_hostMove {o : MoveOperands} {s : State} (alone : s.inputs = []) {j : Nat} (h : j ≤ 2 * o.steps.toNat) :
    run j (hostMove o s) = some (s.withBlock (Block.moveTicks s.config o s.block j)) := by
  induction j with
  | zero => rfl
  | succ j ih =>
    have running := Block.moveTicks_running s.config o s.block h
    have next := step_of_alone (s := s.withBlock (Block.moveTicks s.config o s.block j)) alone running
    rw [run_add, ih (Nat.le_of_succ_le h), Option.bind_some, run_of_step 0 next, run_zero, Block.moveTicks_succ]
    rfl

/-- A move command of n steps with nothing else issued: the block after each of its 2n TICKs. -/
theorem run_of_moveSteps {i : Instr} {n : Count} {s : State} (move : moveSteps i = some n) (alone : s.inputs = []) :
    ∃ o t, o.steps = n ∧ exec i s = .next t ∧
      ∀ j ≤ 2 * n.toNat, run j t = some (s.withBlock (Block.moveTicks s.config o s.block j)) := by
  obtain ⟨o, rfl, -, exec_eq⟩ := exec_of_moveSteps move
  exact ⟨o, hostMove o s, rfl, exec_eq s, fun j h => run_hostMove alone h⟩

/-! ## The laws of a move (R148 to R152) -/

/-- Settles O48: TICK 2k + 1 is the leading edge of step k + 1, TICK 2k its trailing edge, and TICK 2s the stop. -/
theorem moveTakesTwoTicksPerStep : Obligations.MoveTakesTwoTicksPerStep := by
  intro i n s move alone
  obtain ⟨o, t, rfl, exec_eq, run_eq⟩ := run_of_moveSteps move alone
  refine ⟨t, exec_eq, fun k one_le le => ?_, fun k lt => ?_, ?_⟩
  · obtain ⟨k, rfl⟩ := Nat.exists_eq_add_of_le' one_le
    have high := midMove_high s.config o s.block le
    exact ⟨_, run_eq _ (by omega), high.running, high.pulsePhase, high.stepsTaken, high.stepsRemaining_toNat⟩
  · have low := midMove_low s.config o s.block lt
    exact ⟨_, run_eq _ (by omega), low.running, low.pulsePhase, low.stepsTaken, low.stepsRemaining_toNat⟩
  · obtain ⟨stopped, remaining, taken⟩ := Block.moveTicks_stopped s.config o s.block
    exact ⟨_, run_eq _ le_rfl, stopped, remaining, taken, not_exec_tick_of_not_running stopped⟩

/-- Settles O49: the period by R41 of the state the command finds, the stage of the leading edge alone. -/
theorem periodFollowsTheStage : Obligations.PeriodFollowsTheStage := by
  intro i n s k move alone inv one_le le
  obtain ⟨o, t, rfl, exec_eq, run_eq⟩ := run_of_moveSteps move alone
  obtain ⟨k, rfl⟩ := Nat.exists_eq_add_of_le' one_le
  refine ⟨t, _, exec_eq, run_eq _ (by omega), Block.moveTicks_period_odd _ o inv.periodFromTable le, ?_⟩
  rw [State.withBlock_block, Nat.mul_succ, Nat.add_succ_sub_one, Block.moveTicks_succ]
  exact (midMove_low s.config o s.block le).tick_low_rampStage le

/-- Settles O50: stage(k) is symmetric, and the PERIOD found is that of step 0. -/
theorem rampIsSymmetric : Obligations.RampIsSymmetric := by
  intro i n s k move alone inv found le
  obtain ⟨o, t, rfl, exec_eq, run_eq⟩ := run_of_moveSteps move alone
  have period {k : Nat} (le : k ≤ o.steps.toNat) :=
    Block.moveTicks_period s.config o inv.periodFromTable le fun _ => found
  refine ⟨t, _, _, exec_eq, run_eq _ (by omega), run_eq _ (by omega), ?_⟩
  rw [State.withBlock_block, State.withBlock_block, period le, period (Nat.sub_le _ k), movePeriod_sub _ le]

/-- Settles O51: both bounds put min(k, s - k) into the last interval of the ramp or past it; they admit the command
itself (k = 0) only where the table has one entry. -/
theorem cruisePlateau : Obligations.CruisePlateau := by
  intro i n s k move alone inv le plateau
  obtain ⟨o, t, rfl, exec_eq, run_eq⟩ := run_of_moveSteps move alone
  have cruise : s.config.duration - s.config.interval ≤ min k (o.steps.toNat - k) := by
    rcases plateau with bound | ⟨-, above, below⟩
    · exact bound
    · unfold Config.duration
      omega
  have found : k = 0 → s.block.period = s.config.entry 0 := by
    rintro rfl
    exact period_eq_entry_zero inv.periodFromTable (n_eq_one_of_duration_le_interval (by omega))
  refine ⟨t, _, exec_eq, run_eq _ (by omega), ?_⟩
  have last : s.config.n - 1 < s.config.n := Nat.sub_one_lt_of_lt s.config.n_pos
  rw [State.withBlock_block, Block.moveTicks_period s.config o inv.periodFromTable le found,
    movePeriod_of_cruise _ cruise, Config.entry_toNat _ last]
  rfl

theorem PulsePhase.bit_eq_true_iff (p : PulsePhase) : p.bit = true ↔ p = .high := by
  cases p <;> simp [PulsePhase.bit]

/-- The mask of ROTW is the named wheel's (40_host_commands.md R108). -/
theorem rotwOperands_mask (n : Count) (w : Wheel) (d : Rotation) : (rotwOperands n w d).mask = wheelMask w := rfl

/-- Settles O53: the lines are the pulse under the mask of ROTW, which leaves out the named wheel. -/
theorem stationaryWheelNeverPulses : Obligations.StationaryWheelNeverPulses := by
  intro n d s j alone le
  refine ⟨⟨_, _, rfl, run_hostMove alone le, ?_⟩, ⟨_, _, rfl, run_hostMove alone le, ?_⟩⟩
  · obtain ⟨phase, high_iff, lineL, lineR⟩ := Block.moveTicks_lines s.config (rotwOperands n .left d) s.block le
    have still : (wheelMask .left).getLsbD 0 = false := by decide
    have driven : (wheelMask .left).getLsbD 1 = true := by decide
    rw [State.withBlock_block, lineL, lineR, rotwOperands_mask, still, driven, Bool.and_false, Bool.and_true,
      phase.bit_eq_true_iff]
    exact ⟨rfl, high_iff⟩
  · obtain ⟨phase, high_iff, lineL, lineR⟩ := Block.moveTicks_lines s.config (rotwOperands n .right d) s.block le
    have still : (wheelMask .right).getLsbD 1 = false := by decide
    have driven : (wheelMask .right).getLsbD 0 = true := by decide
    rw [State.withBlock_block, lineL, lineR, rotwOperands_mask, still, driven, Bool.and_false, Bool.and_true,
      phase.bit_eq_true_iff]
    exact ⟨rfl, high_iff⟩

end Machine

end Sys2Proof
end

section
/-! PROOFS. 70_reset_and_hazards.md section 1: the registers after reset, and how INIT(HALF)'s differ (R220). -/

namespace Sys2Proof.Machine

/-- A hardware reset leaves the registers of the reset block, whatever was in them. -/
@[simp] theorem hardwareReset_block (s : State) : (hardwareReset s).block = Block.reset s.config := rfl

/-- The reset block as R220's table: the first entry is halved as a number. -/
theorem Block.reset_eq (c : Config) :
    Block.reset c =
      { stepsRemaining := 0#16, stepsTaken := 0#16, rampStage := 0#8, phaseMask := 0b00#2, pulsePhase := .low,
        running := false, period := BitVec.ofNat 32 (c.params.rampTable.getD 0 0),
        halfPeriod := BitVec.ofNat 32 (c.params.rampTable.getD 0 0 / 2), mode := .half,
        pulseL := false, pulseR := false, dirL := false, dirR := false } := by
  have halved := c.entry_div_two c.n_pos
  rw [Block.reset, halved]
  rfl

/-- INIT(HALF) writes the reset values, but for the two direction lines. -/
theorem Block.init_half_eq_reset (c : Config) (b : Block) :
    Block.init c .half b =
      { Block.reset c with dirL := c.params.initDirHalf.1, dirR := c.params.initDirHalf.2 } := rfl

/-- Settles O18, from the reset block's table and INIT(HALF) written as a change of it. -/
theorem resetValues : Obligations.ResetValues := by
  refine ⟨⟨Config.build, rfl⟩, fun s => ?_, fun c => ⟨State.resetUnder_config c, ?_, ?_⟩⟩
  · rw [hardwareReset_block, State.resetUnder_block]
  · rw [State.resetUnder_block, Block.reset_eq]
  · rw [exec_init, State.resetUnder_config, Block.init_half_eq_reset]
    rfl

end Sys2Proof.Machine
end

section
/-! PROOFS. 00_scope.md R5 and 70_reset_and_hazards.md section 5: which agent a step belongs to and what the step then
is, and from that when a step is stuck or refused, what it leaves alone, and what an implementation does instead. -/

namespace Sys2Proof.Machine

/-! ## Whose turn it is (60_exceptions.md R185) -/

section Turn
variable {s : State} {e : Input} {rest : List Input}

theorem arbitrate_of_idle (hi : s.inputs = e :: rest) (hr : s.block.running = false) :
    arbitrate s = .input e { s with inputs := rest } := by
  simp [arbitrate, hi, hr]

theorem arbitrate_of_timer_scheduled (hi : s.inputs = e :: rest) (hr : s.block.running = true) {later : List Agent}
    (hs : s.schedule = .timer :: later) : arbitrate s = .timer { s with schedule := later } := by
  simp [arbitrate, hi, hr, hs]

theorem arbitrate_of_host_scheduled (hi : s.inputs = e :: rest) (hr : s.block.running = true) {later : List Agent}
    (hs : s.schedule = .host :: later) :
    arbitrate s = .input e { s with inputs := rest, schedule := later } := by
  simp [arbitrate, hi, hr, hs]

theorem arbitrate_of_timer_chosen (hi : s.inputs = e :: rest) (hr : s.block.running = true) (hs : s.schedule = [])
    (hc : Config.timerFirst s.choices = true) : arbitrate s = .timer { s with choices := s.choices + 1 } := by
  simp [arbitrate, hi, hr, hs, hc]

theorem arbitrate_of_host_chosen (hi : s.inputs = e :: rest) (hr : s.block.running = true) (hs : s.schedule = [])
    (hc : Config.timerFirst s.choices = false) :
    arbitrate s = .input e { s with inputs := rest, choices := s.choices + 1 } := by
  simp [arbitrate, hi, hr, hs, hc]

end Turn

/-- An input is taken only with the turn. -/
theorem hostHasTheTurn_of_taken {s t : State} {e : Input} (taken : arbitrate s = .input e t) : HostHasTheTurn s := by
  cases hi : s.inputs with
  | nil => cases hr : s.block.running <;> simp [arbitrate, hi, hr] at taken
  | cons e' rest =>
    cases hr : s.block.running with
    | false => exact .inl hr
    | true =>
      cases hs : s.schedule with
      | nil =>
        cases hc : Config.timerFirst s.choices with
        | true => simp [arbitrate_of_timer_chosen hi hr hs hc] at taken
        | false => exact .inr (.inr ⟨hs, hc⟩)
      | cons a later =>
        cases a with
        | timer => simp [arbitrate_of_timer_scheduled hi hr hs] at taken
        | host => exact .inr (.inl ⟨later, hs⟩)

/-- No agent can move, or TIMER moves, or HOST has the turn with an input to take. -/
theorem turn_cases (s : State) :
    (Quiescent s ∧ arbitrate s = .none) ∨
    (s.block.running = true ∧ ∃ later k, arbitrate s = .timer { s with schedule := later, choices := k }) ∨
    (∃ e rest, s.inputs = e :: rest ∧ HostHasTheTurn s) := by
  rcases arbitrate_cases s with ⟨hi, hr, none⟩ | timer | ⟨e, rest, _, _, hi, taken⟩
  · exact .inl ⟨⟨hr, hi⟩, none⟩
  · exact .inr (.inl timer)
  · exact .inr (.inr ⟨e, rest, hi, hostHasTheTurn_of_taken taken⟩)

/-! ## The step, agent by agent -/

theorem step_of_timer {s t : State} (h : arbitrate s = .timer t) : step s = exec .tick t := by
  rw [step, h]

theorem step_of_quiescent {s : State} (h : arbitrate s = .none) : step s = .fault .quiescent := by
  rw [step, h]

section TakeInput
variable {s t : State} {e : Input} (taken : arbitrate s = .input e t)
include taken

theorem step_of_instr {i : Instr} (h : fetch e = .instr i) : step s = exec i t := by
  simp [step, taken, h]

theorem step_of_reset (h : fetch e = .reset) : step s = .next (hardwareReset t) := by
  simp [step, taken, h]

theorem step_of_refused {r : Refusal} (h : fetch e = .refused r) : step s = .refused r := by
  simp [step, taken, h]

end TakeInput

/-! ## What an input can be, and how an instruction can end -/

theorem decodeReadOffset_ne_tick (o : Offset) : decodeReadOffset o ≠ some .tick := by
  unfold decodeReadOffset
  repeat' split
  all_goals nofun

theorem decodeWord_ne_tick (w : Word) : decodeWord w ≠ some .tick := by
  unfold decodeWord
  repeat' split
  all_goals nofun

/-- An access is fetched as the instruction it decodes to. -/
theorem fetch_access_eq_instr_iff (a : Access) (i : Instr) :
    fetch (.access a) = .instr i ↔ decodeAccess a = .instr i := by
  cases h : decodeAccess a <;> simp [fetch, h]

/-- TICK is not HOST's to issue (30_encoding.md R90). -/
theorem fetch_ne_tick (e : Input) : fetch e ≠ .instr .tick := by
  cases e with
  | access a =>
    rw [ne_eq, fetch_access_eq_instr_iff]
    rcases decodeAccess_cases a with ⟨o, i, -, read, instr⟩ | ⟨w, i, -, command, instr⟩ | ⟨w, -, -, rejected⟩ |
      ⟨-, -, rejected⟩
    · rw [instr, Decoded.instr.injEq]
      exact fun tick => decodeReadOffset_ne_tick o (tick ▸ read)
    · rw [instr, Decoded.instr.injEq]
      exact fun tick => decodeWord_ne_tick w (tick ▸ command)
    · simp [rejected]
    · simp [rejected]
  | pseudo p => cases p <;> simp [fetch]
  | reset => simp [fetch]

/-- Only an access the decoder rejects is refused, by the rejection's name. -/
theorem fetch_eq_refused_iff (e : Input) (r : Refusal) :
    fetch e = .refused r ↔ ∃ a, e = .access a ∧
      ((r = .reservedCommand ∧ decodeAccess a = .rejected .reservedCommand) ∨
       (r = .unadmittedAccess ∧ decodeAccess a = .rejected .unadmittedAccess)) := by
  cases e with
  | access a =>
    cases h : decodeAccess a with
    | instr i => simp [fetch, h]
    | rejected j => cases j <;> simp [fetch, h, Reject.refusal, eq_comm]
  | pseudo p => cases p <;> simp [fetch]
  | reset => simp [fetch]

/-- Every instruction but TICK completes in every state. -/
theorem exec_completes {i : Instr} (h : i ≠ .tick) (s : State) : ∃ t, exec i s = .next t := by
  cases i with
  | tick => exact absurd rfl h
  | waitstop =>
    rcases execWaitstop_cases s with ⟨-, again⟩ | ⟨-, done⟩
    · exact ⟨_, again⟩
    · exact ⟨_, done⟩
  | init | movs | rotc | rotw | rdstat | rdrem | rdtaken | rdper | rdhalf | cancel => exact ⟨_, rfl⟩

/-- What HOST issues completes in every state, if it is an instruction. -/
theorem exec_fetched_completes {e : Input} {i : Instr} (h : fetch e = .instr i) (s : State) :
    ∃ t, exec i s = .next t :=
  exec_completes (fun tick => fetch_ne_tick e (tick ▸ h)) s

/-- No instruction writes the configuration, the schedule or the count of choices. -/
theorem exec_frame {i : Instr} {s t : State} (h : exec i s = .next t) :
    t.config = s.config ∧ t.schedule = s.schedule ∧ t.choices = s.choices := by
  rcases exec_cases h with ⟨m, -, rfl⟩ | ⟨o, -, rfl⟩ | ⟨-, -, rfl⟩ | ⟨-, -, r, rfl | ⟨-, -, rfl⟩⟩ <;>
    exact ⟨rfl, rfl, rfl⟩

/-! ## Everything a step can be -/

/-- The state from which HOST's instruction runs: the input taken off, and the choice noted. -/
abbrev State.taking (s : State) (rest : List Input) (later : List Agent) (k : Nat) : State :=
  { s with inputs := rest, schedule := later, choices := k }

/-- Everything a step can be: stuck in a quiescent state, a TICK, an instruction of HOST's, a hardware reset, or the
refusal of an access. -/
theorem step_cases (s : State) :
    (Quiescent s ∧ step s = .fault .quiescent) ∨
    (s.block.running = true ∧ ∃ later k, arbitrate s = .timer { s with schedule := later, choices := k } ∧
      step s = .next ((s.taking s.inputs later k).withBlock (Block.tick s.config s.block))) ∨
    (∃ e rest later k, s.inputs = e :: rest ∧ HostHasTheTurn s ∧
      arbitrate s = .input e (s.taking rest later k) ∧
      ((∃ i t, fetch e = .instr i ∧ exec i (s.taking rest later k) = .next t ∧ step s = .next t) ∨
       (fetch e = .reset ∧ step s = .next (hardwareReset (s.taking rest later k))) ∨
       (∃ r, fetch e = .refused r ∧ step s = .refused r))) := by
  rcases turn_cases s with ⟨quiescent, none⟩ | ⟨running, later, k, timer⟩ | ⟨e, rest, hi, turn⟩
  · exact .inl ⟨quiescent, step_of_quiescent none⟩
  · exact .inr (.inl ⟨running, later, k, timer, (step_of_timer timer).trans (exec_tick_of_running running)⟩)
  · obtain ⟨later, k, taken⟩ := arbitrate_of_hostHasTheTurn hi turn
    refine .inr (.inr ⟨e, rest, later, k, hi, turn, taken, ?_⟩)
    cases hf : fetch e with
    | instr i =>
      obtain ⟨t, next⟩ := exec_fetched_completes hf (s.taking rest later k)
      exact .inl ⟨i, t, rfl, next, (step_of_instr taken hf).trans next⟩
    | reset => exact .inr (.inl ⟨rfl, step_of_reset taken hf⟩)
    | refused r => exact .inr (.inr ⟨r, rfl, step_of_refused taken hf⟩)

/-- A step that is taken: a TICK, an instruction of HOST's, or a hardware reset. -/
theorem step_next_cases {s t : State} (h : step s = .next t) :
    (s.block.running = true ∧ ∃ later k,
      t = (s.taking s.inputs later k).withBlock (Block.tick s.config s.block)) ∨
    (∃ e rest later k, s.inputs = e :: rest ∧
      ((∃ i, fetch e = .instr i ∧ exec i (s.taking rest later k) = .next t) ∨
       (fetch e = .reset ∧ t = hardwareReset (s.taking rest later k)))) := by
  rcases step_cases s with ⟨-, stuck⟩ | ⟨running, later, k, -, tick⟩ | ⟨e, rest, later, k, hi, -, -, taken⟩
  · rw [stuck] at h
    cases h
  · rw [tick] at h
    exact .inl ⟨running, later, k, (Host.Outcome.next.inj h).symm⟩
  · refine .inr ⟨e, rest, later, k, hi, ?_⟩
    rcases taken with ⟨i, u, hf, exec_eq, next⟩ | ⟨hf, next⟩ | ⟨r, -, refused⟩
    · rw [next] at h
      exact .inl ⟨i, hf, Host.Outcome.next.inj h ▸ exec_eq⟩
    · rw [next] at h
      exact .inr ⟨hf, (Host.Outcome.next.inj h).symm⟩
    · rw [refused] at h
      cases h

/-- No step writes the configuration (00_scope.md R7). -/
theorem step_config {s t : State} (h : step s = .next t) : t.config = s.config := by
  rcases step_next_cases h with ⟨-, later, k, rfl⟩ | ⟨e, rest, later, k, -, ⟨i, -, exec_eq⟩ | ⟨-, rfl⟩⟩
  · rfl
  · obtain ⟨config, -, -⟩ := exec_frame exec_eq
    exact config
  · rfl

/-- Settles O17. -/
theorem configurationNeverChanges : Obligations.ConfigurationNeverChanges := fun _ _ => step_config

/-- Settles O13: of the ways a step can end only the quiescent one is a fault, and a quiescent state has no other. -/
theorem stuckExactlyWhenQuiescent : Obligations.StuckExactlyWhenQuiescent := by
  intro s
  rcases step_cases s with ⟨quiescent, stuck⟩ | ⟨running, later, k, -, tick⟩ | ⟨e, rest, later, k, hi, -, -, taken⟩
  · simp [stuck, quiescent]
  · simp [tick, running]
  · rcases taken with ⟨i, t, -, -, next⟩ | ⟨-, next⟩ | ⟨r, -, refused⟩
    · simp [next, hi]
    · simp [next, hi]
    · simp [refused, hi]

/-- With the turn, an access the decoder rejects is refused. -/
theorem step_refused_of_fetch {s : State} {e : Input} {rest : List Input} {r : Refusal} (hi : s.inputs = e :: rest)
    (turn : HostHasTheTurn s) (hf : fetch e = .refused r) : step s = .refused r := by
  obtain ⟨later, k, taken⟩ := arbitrate_of_hostHasTheTurn hi turn
  exact step_of_refused taken hf

/-- Settles O14: a refusal comes from an input alone, and an input is refused exactly where the decoder rejects it. -/
theorem rejectedAccessesAreRefused : Obligations.RejectedAccessesAreRefused := by
  refine ⟨fun s r refused => ?_, fun s a rest hi turn => ⟨fun rejected => ?_, fun rejected => ?_⟩⟩
  · rcases step_cases s with ⟨-, stuck⟩ | ⟨-, later, k, -, tick⟩ | ⟨e, rest, later, k, hi, turn, -, taken⟩
    · simp [stuck] at refused
    · simp [tick] at refused
    · rcases taken with ⟨i, t, -, -, next⟩ | ⟨-, next⟩ | ⟨r', hf, refused'⟩
      · simp [next] at refused
      · simp [next] at refused
      · obtain rfl : r' = r := by simpa [refused'] using refused
        obtain ⟨a, rfl, rejected⟩ := (fetch_eq_refused_iff e r').mp hf
        exact ⟨a, rest, hi, turn, rejected⟩
  · exact step_refused_of_fetch hi turn ((fetch_eq_refused_iff _ _).mpr ⟨a, rfl, .inl ⟨rfl, rejected⟩⟩)
  · exact step_refused_of_fetch hi turn ((fetch_eq_refused_iff _ _).mpr ⟨a, rfl, .inr ⟨rfl, rejected⟩⟩)

/-! ## The implementation (20_memory.md R54, 60_exceptions.md R181) -/

/-- An implementation steps as the model does, but for a rejected access, which it ignores. -/
theorem implementationStep_cases (s : State) :
    (implementationStep s = step s ∧ ∀ r, step s ≠ .refused r) ∨
    (∃ a rest later k r, s.inputs = .access a :: rest ∧ step s = .refused r ∧
      implementationStep s = .next (ignoreAccess a (s.taking rest later k))) := by
  rcases turn_cases s with ⟨-, none⟩ | ⟨running, later, k, timer⟩ | ⟨e, rest, hi, turn⟩
  · exact .inl ⟨by simp [implementationStep, step, none], by simp [step_of_quiescent none]⟩
  · have tick := (step_of_timer timer).trans (exec_tick_of_running running)
    exact .inl ⟨by simp [implementationStep, step, timer], by simp [tick]⟩
  · obtain ⟨later, k, taken⟩ := arbitrate_of_hostHasTheTurn hi turn
    cases hf : fetch e with
    | instr i =>
      obtain ⟨t, next⟩ := exec_fetched_completes hf (s.taking rest later k)
      exact .inl ⟨by simp [implementationStep, step, taken, hf], by simp [step_of_instr taken hf, next]⟩
    | reset => exact .inl ⟨by simp [implementationStep, step, taken, hf], by simp [step_of_reset taken hf]⟩
    | refused r =>
      obtain ⟨a, rfl, -⟩ := (fetch_eq_refused_iff e r).mp hf
      exact .inr ⟨a, rest, later, k, r, hi, step_of_refused taken hf, by simp [implementationStep, taken, hf]⟩

/-- A rejected access reaches no register; a read returns 0. -/
theorem ignoreAccess_frame (a : Access) (s : State) :
    (ignoreAccess a s).block = s.block ∧ (ignoreAccess a s).config = s.config := by
  cases a <;> exact ⟨rfl, rfl⟩

/-- Settles O15: the two steps differ only where the model refuses, and there the access is ignored. -/
theorem implementationIgnoresWhatTheModelRefuses : Obligations.ImplementationIgnoresWhatTheModelRefuses := by
  refine ⟨fun s t next => ?_, fun s r => ?_, fun s r refused => ?_⟩
  · rcases implementationStep_cases s with ⟨same, -⟩ | ⟨a, rest, later, k, r, -, refused, -⟩
    · exact same.trans next
    · simp [refused] at next
  · rcases implementationStep_cases s with ⟨same, notRefused⟩ | ⟨a, rest, later, k, r', -, -, ignored⟩
    · exact same ▸ notRefused r
    · simp [ignored]
  · rcases implementationStep_cases s with ⟨-, notRefused⟩ | ⟨a, rest, later, k, r', hi, -, ignored⟩
    · exact absurd refused (notRefused r)
    · obtain ⟨block, config⟩ := ignoreAccess_frame a (s.taking rest later k)
      refine ⟨_, ignored, block, config, fun o width rest' read => ?_, fun o data rest' write => ?_⟩
      · cases hi.symm.trans read
        rfl
      · cases hi.symm.trans write
        rfl

/-! ## The next step (20_memory.md section 4, 41_tick_fsm.md section 1) -/

/-- Settles O11: with the turn, the input is taken off and its instruction runs. -/
theorem stepRunsTheDecodedInstruction : Obligations.StepRunsTheDecodedInstruction := by
  intro s e rest i hi hf
  refine ⟨fun idle => step_of_instr (arbitrate_of_idle hi idle) hf,
    fun later running turn => step_of_instr (arbitrate_of_host_scheduled hi running turn) hf, ?_⟩
  rintro a rfl
  exact (fetch_access_eq_instr_iff a i).mp hf

/-- Settles O12: where the schedule is empty, the free choice decides between the two steps. -/
theorem eitherAgentMayMove : Obligations.EitherAgentMayMove := by
  intro s running
  have freeChoice {e : Input} {rest : List Input} (hi : s.inputs = e :: rest) (hs : s.schedule = []) :
      step s = exec .tick { s with choices := s.choices + 1 } ∨
        arbitrate s = .input e { s with inputs := rest, choices := s.choices + 1 } := by
    cases hc : Config.timerFirst s.choices with
    | true => exact .inl (step_of_timer (arbitrate_of_timer_chosen hi running hs hc))
    | false => exact .inr (arbitrate_of_host_chosen hi running hs hc)
  refine ⟨fun alone => ?_, fun e rest later hi hs => step_of_timer (arbitrate_of_timer_scheduled hi running hs),
    fun e rest i hi hs hf => (freeChoice hi hs).imp_right fun taken => step_of_instr taken hf,
    fun rest hi hs => (freeChoice hi hs).imp_right fun taken => step_of_reset taken rfl,
    fun e rest r hi hs hf => (freeChoice hi hs).imp_right fun taken => step_of_refused taken hf⟩
  exact (step_of_alone alone running).trans (exec_tick_of_running running).symm

/-- A table row's bits are fetched as the instruction they decode to. -/
theorem fetch_tableAccess {nbits w : Nat} {i : Instr} (some_bits : nbits ≠ 0)
    (h : decodeTableWord nbits w = some i) : fetch (.access (tableAccess nbits w)) = .instr i := by
  rw [fetch_access_eq_instr_iff]
  rw [decodeTableWord, if_neg some_bits] at h
  cases hd : decodeAccess (tableAccess nbits w) with
  | instr j => rw [hd] at h; exact congrArg _ (Option.some.inj h)
  | rejected r => rw [hd] at h; cases h

/-- A placed access is taken next, and taking it leaves the state it was placed in. -/
theorem arbitrate_withFetchWord {nbits : Nat} (some_bits : nbits ≠ 0) (s : State) (w : Nat) :
    arbitrate (s.withFetchWord nbits w) = .input (.access (tableAccess nbits w)) s := by
  cases running : s.block.running <;> simp [State.withFetchWord, some_bits, arbitrate, running]

/-- A placed TICK has the turn. -/
theorem arbitrate_withFetchWord_zero (s : State) (w : Nat) :
    arbitrate (s.withFetchWord 0 w) = .timer { s with block := { s.block with running := true } } := by
  cases hi : s.inputs <;> simp [State.withFetchWord, arbitrate, hi]

/-- Settles O16: the placed access, or the TICK, is what is taken next. -/
theorem placedWordRunsNext : Obligations.PlacedWordRunsNext :=
  ⟨fun s _ w _ some_bits decoded =>
      step_of_instr (arbitrate_withFetchWord some_bits s w) (fetch_tableAccess some_bits decoded),
    fun s w => ⟨rfl, step_of_timer (arbitrate_withFetchWord_zero s w)⟩⟩

/-- Settles O19: a reset taken leaves the registers of the reset block, and RUNNING = 0 among them. -/
theorem resetEndsTheMove : Obligations.ResetEndsTheMove := by
  intro s rest hi turn
  obtain ⟨later, k, taken⟩ := arbitrate_of_hostHasTheTurn hi turn
  exact ⟨_, step_of_reset taken rfl, rfl, rfl, rfl, rfl, rfl, rfl, rfl, rfl, not_exec_tick_of_not_running rfl⟩

end Sys2Proof.Machine
end

section
/-! PROOFS. 10_state.md section 4: reset has the invariants (R35 to R41) and every step keeps them, and what they say of
PERIOD and of the control classes (R31). Before that, what TICK leaves alone and how it counts. -/

namespace Sys2Proof.Machine

/-! ## What TICK leaves alone (41_tick_fsm.md section 2) -/

section TickFrame
variable (c : Config) (b : Block)

theorem Block.tick_frame :
    (Block.tick c b).mode = b.mode ∧ (Block.tick c b).dirL = b.dirL ∧ (Block.tick c b).dirR = b.dirR ∧
      (Block.tick c b).phaseMask = b.phaseMask := by
  rcases b.tick_cases c with ⟨-, stop⟩ | ⟨-, -, fall⟩ | ⟨-, -, rise⟩
  · simp [stop]
  · simp [fall]
  · simp [rise]

@[simp] theorem Block.tick_mode : (Block.tick c b).mode = b.mode := (Block.tick_frame c b).1

@[simp] theorem Block.tick_dirL : (Block.tick c b).dirL = b.dirL := (Block.tick_frame c b).2.1

@[simp] theorem Block.tick_dirR : (Block.tick c b).dirR = b.dirR := (Block.tick_frame c b).2.2.1

@[simp] theorem Block.tick_phaseMask : (Block.tick c b).phaseMask = b.phaseMask := (Block.tick_frame c b).2.2.2

end TickFrame

/-- Settles O39. -/
theorem tickRunsExactlyWhileRunning : Obligations.TickRunsExactlyWhileRunning := by
  refine fun s => ⟨fun running => ⟨_, exec_tick_of_running running, ?_⟩, fun idle => ?_⟩
  · simp
  · exact if_neg (by simp [idle])

/-- Only commands and TICK write a register. -/
theorem exec_block_of_not_writer {i : Instr} {s t : State} (h : exec i s = .next t) (notCommand : ¬ IsCommand i)
    (notTick : i ≠ .tick) : t.block = s.block := by
  rcases exec_cases h with ⟨m, init, -⟩ | ⟨o, move, -⟩ | ⟨tick, -⟩ | ⟨-, -, r, rfl | ⟨-, -, rfl⟩⟩
  · exact absurd (.inl ⟨m, init⟩) notCommand
  · exact absurd (.inr ⟨_, move⟩) notCommand
  · exact absurd tick notTick
  · rfl
  · rfl

/-! ## How TICK counts (41_tick_fsm.md section 4) -/

theorem toNat_pos_of_ne_zero {n : Count} (h : n ≠ 0#16) : 0 < n.toNat :=
  Nat.pos_of_ne_zero fun zero => h (BitVec.eq_of_toNat_eq zero)

/-- A TICK leaves both counts, or moves one step from STEPS_REMAINING to STEPS_TAKEN and computes the stage of the new
boundary; neither count wraps where they fit a TARGET. -/
theorem Block.tick_counts (c : Config) {b : Block} (fits : CountsFitTarget b) :
    ((Block.tick c b).stepsTaken = b.stepsTaken ∧ (Block.tick c b).stepsRemaining = b.stepsRemaining) ∨
    ((Block.tick c b).stepsTaken.toNat = b.stepsTaken.toNat + 1 ∧
      (Block.tick c b).stepsRemaining.toNat + 1 = b.stepsRemaining.toNat ∧
      (Block.tick c b).rampStage.toNat = rampStageOf c (Block.tick c b).boundary) := by
  rcases b.tick_cases c with ⟨-, stop⟩ | ⟨-, -, fall⟩ | ⟨left, -, rise⟩
  · exact .inl (by simp [stop])
  · exact .inl (by simp [fall])
  · have taken := Block.rise_stepsTaken_toNat left fits
    have remaining := Block.rise_stepsRemaining_toNat left
    have boundary : (Block.ramp c b.rise).boundary = b.rise.boundary := by simp [Block.boundary]
    have positive := toNat_pos_of_ne_zero left
    rw [rise, Block.ramp_stepsTaken, Block.ramp_stepsRemaining, Block.ramp_rampStage, rampStageOf_toNat, boundary]
    exact .inr ⟨taken, by omega, rfl⟩

/-- A TICK keeps the TARGET. -/
theorem Block.tick_target (c : Config) {b : Block} (fits : CountsFitTarget b) :
    (Block.tick c b).stepsTaken.toNat + (Block.tick c b).stepsRemaining.toNat =
      b.stepsTaken.toNat + b.stepsRemaining.toNat := by
  rcases Block.tick_counts c fits with ⟨taken, remaining⟩ | ⟨taken, remaining, -⟩
  · rw [taken, remaining]
  · omega

/-- A TICK leaves PERIOD and HALF_PERIOD, or sets both from the entry of the stage it writes. -/
theorem Block.tick_period (c : Config) (b : Block) :
    ((Block.tick c b).period = b.period ∧ (Block.tick c b).halfPeriod = b.halfPeriod) ∨
    ∃ i < c.n, (Block.tick c b).rampStage = BitVec.ofNat 8 i ∧ (Block.tick c b).period = c.entry i ∧
      (Block.tick c b).halfPeriod = c.entry i / 2#32 := by
  rcases b.tick_cases c with ⟨-, stop⟩ | ⟨-, -, fall⟩ | ⟨-, -, rise⟩
  · exact .inl (by simp [stop])
  · exact .inl (by simp [fall])
  · by_cases ramping : b.rise.boundary < c.duration
    · exact .inr ⟨_, rampStageOf_lt c b.rise.boundary, by simp [rise, ramping]⟩
    · exact .inl (by simp [rise, ramping])

/-- Settles O40: the counts move as naturals, and a PERIOD written is the entry of an index of the table. -/
theorem tickArithmeticNeverWraps : Obligations.TickArithmeticNeverWraps := by
  intro s t fits tick
  obtain ⟨-, rfl⟩ := execTick_next tick
  refine ⟨Block.tick_counts s.config fits, ?_⟩
  rcases Block.tick_period s.config s.block with ⟨same, -⟩ | ⟨i, inTable, stage, period, -⟩
  · exact .inl same
  · have index : (BitVec.ofNat 8 i).toNat = i := by
      have := s.config.n_le
      rw [BitVec.toNat_ofNat]
      exact Nat.mod_eq_of_lt (by omega)
    obtain ⟨-, fitsWidth⟩ := s.config.entry_bounds inTable
    rw [State.withBlock_block, stage, period, Config.entry_toNat _ inTable, index]
    exact .inr ⟨rfl, fitsWidth⟩

/-! ## The invariants of one block -/

theorem periodFromTable_of_entry {c : Config} {b : Block} {i : Nat} (inTable : i < c.n) (period : b.period = c.entry i)
    (halfPeriod : b.halfPeriod = c.entry i / 2#32) : PeriodFromTable c b := by
  refine ⟨⟨i, inTable, period⟩, ?_⟩
  rw [halfPeriod, period, BitVec.toNat_udiv]
  rfl

/-- The invariants speak of the block and the configuration alone. -/
theorem Invariants.congr {s t : State} (h : Invariants s) (config : t.config = s.config) (block : t.block = s.block) :
    Invariants t where
  stepsLeftOnlyWhileRunning := block ▸ h.stepsLeftOnlyWhileRunning
  lastStepIsHigh := block ▸ h.lastStepIsHigh
  linesFollowPhase := block ▸ h.linesFollowPhase
  stageInTable := block ▸ config ▸ h.stageInTable
  runningHasMask := block ▸ h.runningHasMask
  countsFitTarget := block ▸ h.countsFitTarget
  periodFromTable := block ▸ config ▸ h.periodFromTable

/-- The reset block has them, with any MODE and any direction lines, which they do not speak of. -/
theorem invariants_cleared (s : State) (m : Mode) (l r : Bool) :
    Invariants (s.withBlock { Block.reset s.config with mode := m, dirL := l, dirR := r }) where
  stepsLeftOnlyWhileRunning := fun left => absurd rfl left
  lastStepIsHigh := nofun
  linesFollowPhase := ⟨rfl, rfl⟩
  stageInTable := s.config.n_pos
  runningHasMask := nofun
  countsFitTarget := Nat.zero_le _
  periodFromTable := periodFromTable_of_entry s.config.n_pos rfl rfl

theorem invariants_reset (s : State) : Invariants (s.withBlock (Block.reset s.config)) :=
  invariants_cleared s .half false false

theorem invariants_init (m : Mode) (s : State) : Invariants (s.withBlock (Block.init s.config m s.block)) :=
  invariants_cleared s m (initDirs s.config m).1 (initDirs s.config m).2

/-- MoveCore keeps them: RUNNING and STEPS_REMAINING are written together, and the period and stage are not written. -/
theorem Invariants.hostMove {s : State} (h : Invariants s) {o : MoveOperands} (mask : o.mask ≠ 0b00#2) :
    Invariants (hostMove o s) where
  stepsLeftOnlyWhileRunning := (runningAfterMove_eq_true_iff o.steps).mpr
  lastStepIsHigh := fun running none_left => absurd none_left ((runningAfterMove_eq_true_iff o.steps).mp running)
  linesFollowPhase := ⟨rfl, rfl⟩
  stageInTable := h.stageInTable
  runningHasMask := fun _ => mask
  countsFitTarget := by
    have taken : (Machine.hostMove o s).block.stepsTaken.toNat = 0 := rfl
    have := (Machine.hostMove o s).block.stepsRemaining.isLt
    unfold CountsFitTarget
    omega
  periodFromTable := h.periodFromTable

/-- TICK keeps them, stage by stage. -/
theorem Invariants.tick {s : State} (h : Invariants s) (running : s.block.running = true) :
    Invariants (s.withBlock (Block.tick s.config s.block)) where
  stepsLeftOnlyWhileRunning := by
    rcases s.block.tick_cases s.config with ⟨none_left, stop⟩ | ⟨-, -, fall⟩ | ⟨-, -, rise⟩
    · simp [stop, none_left, StepsLeftOnlyWhileRunning]
    · simp [fall, running, StepsLeftOnlyWhileRunning]
    · simp [rise, running, StepsLeftOnlyWhileRunning]
  lastStepIsHigh := by
    rcases s.block.tick_cases s.config with ⟨-, stop⟩ | ⟨left, -, fall⟩ | ⟨-, -, rise⟩
    · simp [stop, LastStepIsHigh]
    · simp [fall, left, LastStepIsHigh]
    · simp [rise, LastStepIsHigh]
  linesFollowPhase := by
    rcases s.block.tick_cases s.config with ⟨-, stop⟩ | ⟨-, -, fall⟩ | ⟨-, -, rise⟩
    · simpa [stop, LinesFollowPhase] using h.linesFollowPhase
    · simp [fall, LinesFollowPhase, PulsePhase.bit]
    · simp [rise, LinesFollowPhase, PulsePhase.bit]
  stageInTable := by
    have inTable := h.stageInTable
    rw [StageInTable, State.withBlock_block, State.withBlock_config]
    rcases s.block.tick_cases s.config with ⟨-, stop⟩ | ⟨-, -, fall⟩ | ⟨-, -, rise⟩
    · rwa [stop, Block.stop_rampStage]
    · rwa [fall, Block.fall_rampStage]
    · rw [rise, Block.ramp_rampStage, rampStageOf_toNat]
      exact rampStageOf_lt s.config _
  runningHasMask := fun _ => by
    rw [State.withBlock_block, Block.tick_phaseMask]
    exact h.runningHasMask running
  countsFitTarget := (Block.tick_target s.config h.countsFitTarget).trans_le h.countsFitTarget
  periodFromTable := by
    rcases Block.tick_period s.config s.block with ⟨period, halfPeriod⟩ | ⟨i, inTable, -, period, halfPeriod⟩
    · rw [PeriodFromTable, State.withBlock_block, period, halfPeriod]
      exact h.periodFromTable
    · exact periodFromTable_of_entry inTable period halfPeriod

/-! ## The invariants of every reachable state -/

/-- Settles O43. -/
theorem resetHasTheInvariants : Obligations.ResetHasTheInvariants :=
  ⟨invariants_reset State.reset, fun c => invariants_reset (State.resetUnder c)⟩

/-- Every instruction keeps the invariants. -/
theorem exec_keeps_invariants {i : Instr} {s t : State} (h : Invariants s) (exec_eq : exec i s = .next t) :
    Invariants t := by
  rcases exec_cases exec_eq with ⟨m, -, rfl⟩ | ⟨o, move, rfl⟩ | ⟨-, running, rfl⟩ | ⟨-, -, r, read⟩
  · exact invariants_init m s
  · obtain ⟨o', -, mask, moves⟩ := exec_of_moveSteps move
    rw [moves s] at exec_eq
    exact Host.Outcome.next.inj exec_eq ▸ h.hostMove mask
  · exact h.tick running
  · rcases read with rfl | ⟨-, -, rfl⟩ <;> exact h.congr rfl rfl

theorem step_keeps_invariants {s t : State} (h : Invariants s) (next : step s = .next t) : Invariants t := by
  rcases step_next_cases next with ⟨running, later, k, rfl⟩ | ⟨e, rest, later, k, -, ⟨i, -, exec_eq⟩ | ⟨-, rfl⟩⟩
  · exact (h.tick running).congr rfl rfl
  · exact exec_keeps_invariants (s := s.taking rest later k) (h.congr rfl rfl) exec_eq
  · exact invariants_reset _

/-- Settles O44: each kind of step keeps the invariants. -/
theorem everyStepKeepsTheInvariants : Obligations.EveryStepKeepsTheInvariants := fun _ _ => step_keeps_invariants

/-- The induction over a run: what holds at its start holds at its end. -/
theorem run_keeps_invariants {s t : State} (h : Invariants s) {k : Nat} (run_eq : run k s = some t) : Invariants t := by
  induction k generalizing s with
  | zero => exact Option.some.inj run_eq ▸ h
  | succ k ih =>
    cases next : step s with
    | next u => exact ih (step_keeps_invariants h next) (run_of_step k next ▸ run_eq)
    | fault | refused => simp [run_succ, next, nextState?] at run_eq

/-! ## What the invariants say -/

/-- R35 read backwards: at rest no steps are left. -/
theorem Invariants.stepsRemaining_of_idle {s : State} (h : Invariants s) (idle : s.block.running = false) :
    s.block.stepsRemaining = 0#16 := by
  by_contra left
  simp [h.stepsLeftOnlyWhileRunning left] at idle

/-- Settles O45: a move starts a new TARGET, INIT clears it, and TICK moves a step from one count to the other. -/
theorem countsAddUpToTheTarget : Obligations.CountsAddUpToTheTarget := by
  intro i s t fits exec_eq
  rcases exec_cases exec_eq with ⟨m, rfl, rfl⟩ | ⟨o, move, rfl⟩ | ⟨rfl, -, rfl⟩ | ⟨notCommand, notTick, -⟩
  · simp [moveSteps]
  · have notInit := ne_init_of_moveSteps move
    simp [move, notInit]
  · exact ⟨nofun, nofun, fun _ _ => Block.tick_target s.config fits⟩
  · have unchanged := exec_block_of_not_writer exec_eq notCommand notTick
    exact ⟨fun n move => absurd (.inr ⟨n, move⟩) notCommand, fun m init => absurd (.inl ⟨m, init⟩) notCommand,
      fun _ _ => by rw [unchanged]⟩

/-- Settles O46: by R35 and R36 RUNNING, PULSE_PHASE and STEPS_REMAINING leave four classes, one for each stage of TICK
and one without a TICK. -/
theorem controlClassesDecideTheTick : Obligations.ControlClassesDecideTheTick := by
  intro s inv
  cases running : s.block.running with
  | false =>
    have none_left := inv.stepsRemaining_of_idle running
    exact ⟨.idle, by simp [controlClass, running, none_left],
      fun _ => ⟨rfl, none_left, not_exec_tick_of_not_running running⟩, nofun, nofun, nofun⟩
  | true =>
    have tick := exec_tick_of_running running
    by_cases none_left : s.block.stepsRemaining = 0#16
    · have high := inv.lastStepIsHigh running none_left
      exact ⟨.final, by simp [controlClass, running, none_left, high], nofun, nofun, nofun,
        fun _ => ⟨_, tick, Block.tick_of_stop _ none_left⟩⟩
    · have some_left : (s.block.stepsRemaining == 0#16) = false := beq_eq_false_iff_ne.mpr none_left
      cases phase : s.block.pulsePhase with
      | low =>
        have turns := (Block.tick_pulsePhase_eq_high_iff s.config none_left).mpr phase
        refine ⟨.ready, by simp [controlClass, running, phase, some_left], nofun,
          fun _ => ⟨_, tick, turns, ?_⟩, nofun, nofun⟩
        have taken := Block.rise_stepsTaken_toNat none_left inv.countsFitTarget
        have remaining := Block.rise_stepsRemaining_toNat none_left
        have positive := toNat_pos_of_ne_zero none_left
        rw [State.withBlock_block, Block.tick_of_rise _ none_left phase, Block.ramp_stepsTaken,
          Block.ramp_stepsRemaining]
        exact ⟨taken, by omega⟩
      | high =>
        refine ⟨.pulse, by simp [controlClass, running, phase, some_left], nofun, nofun,
          fun _ => ⟨_, tick, ?_⟩, nofun⟩
        rw [State.withBlock_block, Block.tick_of_fall _ none_left phase]
        exact ⟨rfl, rfl, rfl, running⟩

/-- Settles O47: PERIOD is an entry of a table that never rises. -/
theorem periodStaysWithinTheTable : Obligations.PeriodStaysWithinTheTable := by
  intro s inv
  obtain ⟨⟨j, inTable, period⟩, -⟩ := inv.periodFromTable
  obtain ⟨positive, fitsWidth⟩ := s.config.entry_bounds inTable
  have last : s.config.n - 1 < s.config.n := Nat.sub_one_lt_of_lt s.config.n_pos
  rw [period, Config.entry_toNat _ inTable]
  exact ⟨s.config.entry_antitone (Nat.le_sub_one_of_lt inTable) last, s.config.entry_antitone (Nat.zero_le j) inTable,
    positive, fitsWidth⟩

/-! ## Who writes the other registers (10_state.md section 1) -/

/-- Settles O42: MoveCore leaves MODE, the period and the stage; TICK leaves MODE, the direction lines and the mask; a
read leaves the block. -/
theorem writersOfTheOtherRegisters : Obligations.WritersOfTheOtherRegisters := by
  intro i s t exec_eq
  rcases exec_cases exec_eq with ⟨m, rfl, rfl⟩ | ⟨o, move, rfl⟩ | ⟨rfl, -, rfl⟩ | ⟨notCommand, notTick, -⟩
  · simp
  · simp [move]
  · simp
  · have unchanged := exec_block_of_not_writer exec_eq notCommand notTick
    simp [unchanged]

end Sys2Proof.Machine
end

section
/-! PROOFS. 41_tick_fsm.md section 5 and 70_reset_and_hazards.md sections 3 and 4: the profile of a move (R154), the
state it leaves (R153), its rising edges (R228) and its duration (R233). -/

namespace Sys2Proof.Machine

/-! ## The profile (R154) -/

theorem rampStageOf_mono (c : Config) {b b' : Nat} (h : b ≤ b') : rampStageOf c b ≤ rampStageOf c b' :=
  min_le_min_right _ (Nat.div_le_div_right h)

/-- The further a step is from both ends of its move, the shorter its period. -/
theorem movePeriod_antitone (c : Config) {s j k : Nat} (h : min j (s - j) ≤ min k (s - k)) :
    (movePeriod c s k).toNat ≤ (movePeriod c s j).toNat := by
  rw [movePeriod, movePeriod, moveStage_eq_rampStageOf, moveStage_eq_rampStageOf,
    Config.entry_toNat c (rampStageOf_lt c _), Config.entry_toNat c (rampStageOf_lt c _)]
  exact c.entry_antitone (rampStageOf_mono c h) (rampStageOf_lt c _)

theorem lt_sub_of_acceleration {c : Config} {s k : Nat} (h : profilePhase c s k = .acceleration) : k < s - k := by
  unfold profilePhase at h
  split at h
  · cases h
  · split at h
    · assumption
    · cases h

theorem duration_le_of_cruise {c : Config} {s k : Nat} (h : profilePhase c s k = .cruise) :
    c.duration ≤ min k (s - k) := by
  unfold profilePhase at h
  split at h
  · assumption
  · split at h <;> cases h

/-- Settles O52: before the midpoint step k is further from both ends than step k - 1, and past it nearer. -/
theorem profileIsTrapezoidal : Obligations.ProfileIsTrapezoidal := by
  intro i n s k move alone inv two_le le
  obtain ⟨o, t, rfl, exec_eq, run_eq⟩ := run_of_moveSteps move alone
  have period {j : Nat} (positive : 1 ≤ j) (le : j ≤ o.steps.toNat) :=
    Block.moveTicks_period s.config o inv.periodFromTable le (by omega)
  refine ⟨t, _, _, exec_eq, run_eq _ (by omega), run_eq _ (by omega), ?_⟩
  rw [State.withBlock_block, State.withBlock_block, period (by omega) le, period (by omega) (by omega)]
  refine ⟨fun acceleration => ?_, fun cruise => ?_, fun _ past => ?_⟩
  · have := lt_sub_of_acceleration acceleration
    exact movePeriod_antitone _ (by omega)
  · have := duration_le_of_cruise cruise
    have last : s.config.n - 1 < s.config.n := Nat.sub_one_lt_of_lt s.config.n_pos
    rw [movePeriod_of_cruise _ (by omega), Config.entry_toNat _ last]
    rfl
  · exact movePeriod_antitone _ (by omega)

/-! ## What a completed move leaves (R153) -/

section MoveTicksFrame
variable (c : Config) (o : MoveOperands) (b : Block) (j : Nat)

theorem Block.moveTicks_mode : (Block.moveTicks c o b j).mode = b.mode := by
  induction j with
  | zero => rfl
  | succ j ih => rw [Block.moveTicks_succ, Block.tick_mode, ih]

theorem Block.moveTicks_dirL : (Block.moveTicks c o b j).dirL = o.dirL := by
  induction j with
  | zero => rfl
  | succ j ih => rw [Block.moveTicks_succ, Block.tick_dirL, ih]

theorem Block.moveTicks_dirR : (Block.moveTicks c o b j).dirR = o.dirR := by
  induction j with
  | zero => rfl
  | succ j ih => rw [Block.moveTicks_succ, Block.tick_dirR, ih]

end MoveTicksFrame

/-- The last step has boundary 0, so its leading edge writes stage 0 and the slowest period, and the stop that follows
leaves them. -/
theorem Block.moveTicks_completed (c : Config) (o : MoveOperands) (b : Block) (some_steps : o.steps ≠ 0#16) :
    Block.moveTicks c o b (2 * o.steps.toNat) =
      { stepsRemaining := 0#16, stepsTaken := o.steps, rampStage := 0#8, phaseMask := o.mask, pulsePhase := .high,
        running := false, period := c.entry 0, halfPeriod := c.entry 0 / 2#32, mode := b.mode,
        pulseL := o.mask.getLsbD 0, pulseR := o.mask.getLsbD 1, dirL := o.dirL, dirR := o.dirR } := by
  obtain ⟨k, hk⟩ := Nat.exists_eq_succ_of_ne_zero (toNat_pos_of_ne_zero some_steps).ne'
  obtain ⟨-, remaining, taken⟩ := Block.moveTicks_stopped c o b
  have low := midMove_low c o b (k := k) (by omega)
  have boundary : (Block.moveTicks c o b (2 * k)).rise.boundary = 0 := by
    rw [low.rise_boundary (by omega), hk]
    omega
  have first : rampStageOf c 0 = 0 := by simp [rampStageOf]
  have ramping : 0 < c.duration := c.duration_pos
  have last := Block.moveTicks_last c o b hk
  rw [Block.moveTicks_succ, low.tick_eq_ramp_rise (by omega), Block.ramp_rise_eq, boundary, first,
    if_pos ramping, if_pos ramping, low.phaseMask, Block.moveTicks_mode, Block.moveTicks_dirL,
    Block.moveTicks_dirR] at last
  rw [last] at remaining taken ⊢
  rw [← remaining, ← taken]
  rfl

/-- Settles O54: the operands of the command are its mask and direction lines. -/
theorem completedMoveForgetsThePast : Obligations.CompletedMoveForgetsThePast := by
  intro i n s move some_steps alone
  obtain ⟨o, rfl, -, exec_eq⟩ := exec_of_moveSteps move
  refine ⟨hostMove o s, _, exec_eq s, run_hostMove alone le_rfl, ?_⟩
  have halved := s.config.entry_div_two s.config.n_pos
  rw [Block.moveTicks_completed _ _ _ some_steps, halved]
  rfl

/-! ## The TICKs of a move as steps of the machine -/

section MoveSteps
variable {s : State} (alone : s.inputs = []) (o : MoveOperands)
include alone

/-- With nothing issued, each step up to the stop is the next TICK of the move. -/
theorem step_moveTicks {j : Nat} (h : j < 2 * o.steps.toNat) :
    step (s.withBlock (Block.moveTicks s.config o s.block j)) =
      .next (s.withBlock (Block.moveTicks s.config o s.block (j + 1))) := by
  have running := Block.moveTicks_running s.config o s.block h
  rw [Block.moveTicks_succ]
  exact step_of_alone (s := s.withBlock (Block.moveTicks s.config o s.block j)) alone running

/-- The history of the lines has the lines after each TICK. -/
theorem lineHistory_moveTicks {j m : Nat} (h : j + m ≤ 2 * o.steps.toNat) :
    lineHistory m (s.withBlock (Block.moveTicks s.config o s.block j)) =
      (List.range' (j + 1) m).map fun i => (Block.moveTicks s.config o s.block i).lines := by
  induction m generalizing j with
  | zero => rfl
  | succ m ih =>
    rw [lineHistory, step_moveTicks alone o (by omega), List.range'_succ, List.map_cons]
    exact congrArg _ (ih (by omega))

/-- The time of the TICKs is the sum of the periods they find. -/
theorem tickTime_moveTicks {j m : Nat} (h : j + m ≤ 2 * o.steps.toNat) :
    tickTime m (s.withBlock (Block.moveTicks s.config o s.block j)) =
      ((List.range' j m).map fun i => (Block.moveTicks s.config o s.block i).period.toNat).sum := by
  induction m generalizing j with
  | zero => rfl
  | succ m ih =>
    rw [tickTime, step_moveTicks alone o (by omega), List.range'_succ, List.map_cons, List.sum_cons]
    exact congrArg _ (ih (by omega))

end MoveSteps

/-! ## Rising edges (R228) -/

/-- A line that is 0 after each even TICK with steps left, and `bit` after each odd one, rises once for each of the
steps left if `bit` is 1, and never if it is 0. -/
theorem risingEdges_of_pulses {line : Nat → Bool} {bit : Bool} {n : Nat} (low : ∀ k < n, line (2 * k) = false)
    (high : ∀ k < n, line (2 * k + 1) = bit) (masked : ∀ j ≤ 2 * n, line j = true → bit = true) {k r : Nat}
    (h : k + r = n) :
    risingEdges (line (2 * k)) ((List.range' (2 * k + 1) (2 * r)).map line) = if bit then r else 0 := by
  induction r generalizing k with
  | zero => simp [risingEdges]
  | succ r ih =>
    have rest := ih (k := k + 1) (by omega)
    have next := masked (2 * (k + 1)) (by omega)
    rw [Nat.mul_succ, List.range'_succ, List.range'_succ, List.map_cons, List.map_cons, risingEdges, risingEdges,
      low k (by omega), high k (by omega)]
    rw [Nat.mul_succ] at rest next
    rw [rest]
    cases bit with
    | false => simpa using next
    | true => simp [Nat.add_comm]

/-- Settles O55: the lines are the pulse under the command's mask, R37 after every TICK. -/
theorem risingEdgesCountTheSteps : Obligations.RisingEdgesCountTheSteps := by
  intro i n s move alone
  obtain ⟨o, rfl, -, exec_eq⟩ := exec_of_moveSteps move
  have history := lineHistory_moveTicks alone o (j := 0) (m := 2 * o.steps.toNat) (by omega)
  replace history : lineHistory (2 * o.steps.toNat) (hostMove o s) = _ := history
  have low {k : Nat} (h : k < o.steps.toNat) := (midMove_low s.config o s.block h).lines
  have high {k : Nat} (h : k < o.steps.toNat) := (midMove_high s.config o s.block h).lines
  refine ⟨hostMove o s, exec_eq s, by rw [history, List.length_map, List.length_range'], ?_, ?_⟩
  · rw [history, List.map_map]
    refine risingEdges_of_pulses (line := fun j => (Block.moveTicks s.config o s.block j).pulseL) (k := 0)
      (fun k h => (low h).1) (fun k h => (high h).1) (fun j h one => ?_) (Nat.zero_add _)
    obtain ⟨phase, -, lineL, -⟩ := Block.moveTicks_lines s.config o s.block h
    exact (Bool.and_eq_true_iff.mp (lineL ▸ one)).2
  · rw [history, List.map_map]
    refine risingEdges_of_pulses (line := fun j => (Block.moveTicks s.config o s.block j).pulseR) (k := 0)
      (fun k h => (low h).2) (fun k h => (high h).2) (fun j h one => ?_) (Nat.zero_add _)
    obtain ⟨phase, -, -, lineR⟩ := Block.moveTicks_lines s.config o s.block h
    exact (Bool.and_eq_true_iff.mp (lineR ▸ one)).2

/-! ## The duration (R233) -/

/-- A first term, and then each term of `g` twice. -/
theorem sum_range_of_pairs {f g : Nat → Nat} {k : Nat} (odd : ∀ i < k, f (2 * i + 1) = g i)
    (even : ∀ i < k, f (2 * (i + 1)) = g i) :
    ((List.range (2 * k + 1)).map f).sum = f 0 + 2 * ((List.range k).map g).sum := by
  induction k with
  | zero => simp
  | succ k ih =>
    have before := ih (fun i h => odd i (Nat.lt_succ_of_lt h)) fun i h => even i (Nat.lt_succ_of_lt h)
    calc ((List.range (2 * (k + 1) + 1)).map f).sum
        = ((List.range (2 * k + 1)).map f).sum + f (2 * k + 1) + f (2 * (k + 1)) := by
          rw [List.sum_range_succ, Nat.mul_succ, List.sum_range_succ]
      _ = f 0 + 2 * (((List.range k).map g).sum + g k) := by
          rw [before, odd k (Nat.lt_succ_self k), even k (Nat.lt_succ_self k)]
          omega
      _ = f 0 + 2 * ((List.range (k + 1)).map g).sum := by rw [List.sum_range_succ]

/-- Settles O56: the first TICK finds the period of the command, the two TICKs after it that of step 1, and so on; the
stop finds that of the last step. -/
theorem moveDuration : Obligations.MoveDuration := by
  intro i n s move some_steps alone inv
  obtain ⟨o, rfl, -, exec_eq⟩ := exec_of_moveSteps move
  obtain ⟨k, hk⟩ := Nat.exists_eq_succ_of_ne_zero (toNat_pos_of_ne_zero some_steps).ne'
  have odd {i : Nat} (h : i < o.steps.toNat) := Block.moveTicks_period_odd s.config o inv.periodFromTable h
  have even {i : Nat} (h : i + 1 < o.steps.toNat) := Block.moveTicks_period_even s.config o s.block h
  have time := tickTime_moveTicks alone o (j := 0) (m := 2 * o.steps.toNat) (by omega)
  replace time : tickTime (2 * o.steps.toNat) (hostMove o s) = _ := time
  refine ⟨hostMove o s, exec_eq s, ?_⟩
  have pairs := sum_range_of_pairs (k := k)
    (f := fun j => (Block.moveTicks s.config o s.block j).period.toNat)
    (g := fun i => (movePeriod s.config o.steps.toNat (i + 1)).toNat)
    (fun i h => by rw [odd (by omega)]) (fun i h => by rw [even (by omega), odd (by omega)])
  have last := odd (i := k) (by omega)
  rw [time, ← List.range_eq_range', show 2 * o.steps.toNat = 2 * k + 1 + 1 by omega, List.sum_range_succ, pairs, last,
    show o.steps.toNat - 1 = k by omega, show o.steps.toNat = k + 1 by omega]
  rfl

end Sys2Proof.Machine
end

section
/-! PROOFS. 40_host_commands.md section 4, 70_reset_and_hazards.md section 5 and 20_memory.md section 4: HOST and TIMER
together. WAITSTOP polls (R120), TIMER's turn comes (R235), the TICKs it takes end the move, and a read sees what was
written before it (R60). -/

namespace Sys2Proof.Machine

/-! ## WAITSTOP (R120) -/

theorem exec_waitstop_of_running {s : State} (running : s.block.running = true) :
    exec .waitstop s = .next { s with
      readLog := s.block.status :: s.readLog, inputs := .pseudo .waitstop :: s.inputs } := by
  rcases execWaitstop_cases s with ⟨-, again⟩ | ⟨idle, -⟩
  · exact again
  · simp [running] at idle

theorem exec_waitstop_of_idle {s : State} (idle : s.block.running = false) :
    exec .waitstop s = .next { s with readLog := s.block.status :: s.readLog } := by
  rcases execWaitstop_cases s with ⟨running, -⟩ | ⟨-, done⟩
  · simp [idle] at running
  · exact done

/-- Settles O35: a WAITSTOP issued again would show in the inputs, and at rest R35 leaves no steps. -/
theorem waitstopPollsRunning : Obligations.WaitstopPollsRunning := by
  refine fun s => ⟨exec_waitstop_of_running, exec_waitstop_of_idle, fun t inv exec_eq inputs => ?_⟩
  cases running : s.block.running with
  | true =>
    rw [exec_waitstop_of_running running] at exec_eq
    cases exec_eq
    simp at inputs
  | false =>
    rw [exec_waitstop_of_idle running] at exec_eq
    cases exec_eq
    exact ⟨running, inv.stepsRemaining_of_idle running⟩

/-- Only WAITSTOP, and only while RUNNING = 1, leaves something to issue. -/
theorem exec_inputs {i : Instr} {s t : State} (h : exec i s = .next t) :
    t.inputs = s.inputs ∨ (i = .waitstop ∧ t.inputs = .pseudo .waitstop :: s.inputs) := by
  rcases exec_cases h with ⟨m, -, rfl⟩ | ⟨o, -, rfl⟩ | ⟨-, -, rfl⟩ | ⟨-, -, r, rfl | ⟨waitstop, -, rfl⟩⟩
  · exact .inl rfl
  · exact .inl rfl
  · exact .inl rfl
  · exact .inl rfl
  · exact .inr ⟨waitstop, rfl⟩

/-- At rest WAITSTOP is done after one read, and what stands behind it is next. -/
theorem step_waitstop_of_idle {s : State} {rest : List Input} (hi : s.inputs = .pseudo .waitstop :: rest)
    (idle : s.block.running = false) :
    step s = .next { s with readLog := s.block.status :: s.readLog, inputs := rest } :=
  (step_of_instr (arbitrate_of_idle hi idle) rfl).trans (exec_waitstop_of_idle idle)

/-! ## The TICKs that are left (41_tick_fsm.md R149) -/

section TicksToStop
variable {b : Block}

theorem ticksToStop_of_none_left (none_left : b.stepsRemaining = 0#16) : ticksToStop b = 1 := if_pos none_left

theorem ticksToStop_of_high (left : b.stepsRemaining ≠ 0#16) (high : b.pulsePhase = .high) :
    ticksToStop b = 2 * b.stepsRemaining.toNat + 1 := by
  rw [ticksToStop, if_neg left, if_pos high]

theorem ticksToStop_of_low (left : b.stepsRemaining ≠ 0#16) (low : b.pulsePhase = .low) :
    ticksToStop b = 2 * b.stepsRemaining.toNat := by
  simp [ticksToStop, left, low]

/-- A TICK is the last of those left and stops, or leaves one fewer, which is at least one. -/
theorem Block.ticksToStop_tick (c : Config) (running : b.running = true) :
    ((Block.tick c b).running = false ∧ ticksToStop b = 1) ∨
    ((Block.tick c b).running = true ∧ ticksToStop (Block.tick c b) + 1 = ticksToStop b ∧ 2 ≤ ticksToStop b) := by
  rcases b.tick_cases c with ⟨none_left, stop⟩ | ⟨left, high, fall⟩ | ⟨left, low, rise⟩
  · exact .inl ⟨by rw [stop, Block.stop_running], ticksToStop_of_none_left none_left⟩
  · have positive := toNat_pos_of_ne_zero left
    have fewer : ticksToStop b.fall = 2 * b.stepsRemaining.toNat := ticksToStop_of_low left rfl
    rw [fall, fewer, ticksToStop_of_high left high]
    exact .inr ⟨running, rfl, by omega⟩
  · have positive := toNat_pos_of_ne_zero left
    have remaining : (Block.ramp c b.rise).stepsRemaining.toNat = b.stepsRemaining.toNat - 1 := by
      rw [Block.ramp_stepsRemaining, Block.rise_stepsRemaining_toNat left]
    have still : (Block.ramp c b.rise).running = true := by rw [Block.ramp_running, Block.rise_running, running]
    have high : (Block.ramp c b.rise).pulsePhase = .high := by rw [Block.ramp_pulsePhase, Block.rise_pulsePhase]
    have fewer : ticksToStop (Block.ramp c b.rise) = 2 * (b.stepsRemaining.toNat - 1) + 1 := by
      by_cases last : (Block.ramp c b.rise).stepsRemaining = 0#16
      · rw [ticksToStop_of_none_left last, ← remaining, last]
        rfl
      · rw [ticksToStop_of_high last high, remaining]
    rw [rise, fewer, ticksToStop_of_low left low]
    exact .inr ⟨still, by omega, by omega⟩

end TicksToStop

/-! ## TIMER's turn comes (R235) -/

/-- The run from here comes to a state in which TIMER moves, or to rest. -/
def ReachesTimer (s : State) : Prop := ∃ j u, run j s = some u ∧ (TimerMoves u ∨ u.block.running = false)

theorem ReachesTimer.of_now {s : State} (h : TimerMoves s ∨ s.block.running = false) : ReachesTimer s :=
  ⟨0, s, rfl, h⟩

theorem ReachesTimer.of_step {s t : State} (next : step s = .next t) : ReachesTimer t → ReachesTimer s := by
  rintro ⟨j, u, run_eq, timer⟩
  exact ⟨j + 1, u, (run_of_step j next).trans run_eq, timer⟩

theorem weaklyFair_iff (s : State) :
    WeaklyFair s ↔ ∀ k t, run k s = some t → t.block.running = true → ReachesTimer t := Iff.rfl

theorem WeaklyFair.of_run {s t : State} {k : Nat} (h : WeaklyFair s) (run_eq : run k s = some t) : WeaklyFair t :=
  fun j u later => h (k + j) u (by rw [run_add, run_eq, Option.bind_some, later])

theorem NeverRefused.of_run {s t : State} {k : Nat} (h : NeverRefused s) (run_eq : run k s = some t) :
    NeverRefused t :=
  fun j u r later => h (k + j) u r (by rw [run_add, run_eq, Option.bind_some, later])

theorem run_one_of_step {s t : State} (next : step s = .next t) : run 1 s = some t := run_of_step 0 next

theorem NeverRefused.of_step {s t : State} (h : NeverRefused s) (next : step s = .next t) : NeverRefused t :=
  h.of_run (run_one_of_step next)

/-- TIMER moves, or the block is at rest, or it runs and HOST has something to issue. -/
theorem timer_or_idle_or_issue (s : State) :
    (TimerMoves s ∨ s.block.running = false) ∨ (s.block.running = true ∧ ∃ e rest, s.inputs = e :: rest) := by
  cases running : s.block.running with
  | false => exact .inl (.inr rfl)
  | true =>
    cases hi : s.inputs with
    | nil => exact .inl (.inl ⟨s, by simp [arbitrate, hi, running]⟩)
    | cons e rest => exact .inr ⟨rfl, e, rest, rfl⟩

/-- An input taken and not refused is a step, and the schedule and the choices go on as the arbitration left them. -/
theorem step_next_of_taken {s u : State} {e : Input} (h : NeverRefused s) (taken : arbitrate s = .input e u) :
    ∃ t, step s = .next t ∧ t.schedule = u.schedule ∧ t.choices = u.choices := by
  cases hf : fetch e with
  | instr i =>
    obtain ⟨t, exec_eq⟩ := exec_fetched_completes hf u
    obtain ⟨-, frame⟩ := exec_frame exec_eq
    exact ⟨t, (step_of_instr taken hf).trans exec_eq, frame⟩
  | reset => exact ⟨_, step_of_reset taken hf, rfl, rfl⟩
  | refused r => exact absurd (step_of_refused taken hf) (h 0 s r rfl)

/-- With an empty schedule each choice that falls to HOST brings TIMER's next one nearer. -/
theorem reachesTimer_of_choices {s : State} {d : Nat} (h : NeverRefused s) (hs : s.schedule = [])
    (hc : Config.timerFirst (s.choices + d) = true) : ReachesTimer s := by
  induction d generalizing s with
  | zero =>
    rcases timer_or_idle_or_issue s with now | ⟨running, e, rest, hi⟩
    · exact .of_now now
    · exact .of_now (.inl ⟨_, arbitrate_of_timer_chosen hi running hs hc⟩)
  | succ d ih =>
    rcases timer_or_idle_or_issue s with now | ⟨running, e, rest, hi⟩
    · exact .of_now now
    · cases first : Config.timerFirst s.choices with
      | true => exact .of_now (.inl ⟨_, arbitrate_of_timer_chosen hi running hs first⟩)
      | false =>
        obtain ⟨t, next, schedule, choices⟩ := step_next_of_taken h (arbitrate_of_host_chosen hi running hs first)
        refine .of_step next (ih (h.of_step next) (schedule.trans hs) ?_)
        rw [choices, Nat.add_right_comm]
        exact hc

/-- HOST's turns at the head of the schedule run out. -/
theorem reachesTimer_of_neverRefused {s : State} (h : NeverRefused s) : ReachesTimer s := by
  induction hs : s.schedule generalizing s with
  | nil =>
    obtain ⟨m, le, first⟩ := Config.timerFirst_recurs s.choices
    exact reachesTimer_of_choices h hs (d := m - s.choices) (by rwa [Nat.add_sub_of_le le])
  | cons a later ih =>
    rcases timer_or_idle_or_issue s with now | ⟨running, e, rest, hi⟩
    · exact .of_now now
    · cases a with
      | timer => exact .of_now (.inl ⟨_, arbitrate_of_timer_scheduled hi running hs⟩)
      | host =>
        obtain ⟨t, next, schedule, -⟩ := step_next_of_taken h (arbitrate_of_host_scheduled hi running hs)
        exact .of_step next (ih (h.of_step next) schedule)

/-- Settles O58: from every state of the run TIMER's turn comes, by the schedule or by the fair choices beyond it. -/
theorem runsAreWeaklyFair : Obligations.RunsAreWeaklyFair := by
  intro s h
  rw [weaklyFair_iff]
  exact fun k t run_eq _ => reachesTimer_of_neverRefused (h.of_run run_eq)

/-! ## Fair runs end the move (R120, R235) -/

theorem step_of_timerMoves {s t : State} (timer : TimerMoves s) (next : step s = .next t) :
    t.block = Block.tick s.config s.block := by
  rcases step_cases s with ⟨-, stuck⟩ | ⟨-, later, k, -, tick⟩ | ⟨e, rest, later, k, -, -, taken, -⟩
  · simp [stuck] at next
  · rw [tick] at next
    cases next
    rfl
  · obtain ⟨u, timer⟩ := timer
    simp [timer] at taken

/-- While the block runs, a step is taken that keeps `Q`, and a step that is not TIMER's leaves the block. -/
def KeepsRunning (Q : State → Prop) : Prop :=
  ∀ s, Q s → s.block.running = true → ∃ t, step s = .next t ∧ Q t ∧ (TimerMoves s ∨ t.block = s.block)

section KeepsRunning
variable {Q : State → Prop} (progress : KeepsRunning Q) {s : State} (holds : Q s)
include progress holds

/-- Until TIMER's turn comes the block stays as it is. -/
theorem KeepsRunning.run_to_timer (running : s.block.running = true) (reaches : ReachesTimer s) :
    ∃ j u, run j s = some u ∧ Q u ∧ u.block = s.block ∧ TimerMoves u := by
  obtain ⟨j, v, run_eq, timer⟩ := reaches
  induction j generalizing s with
  | zero =>
    obtain rfl : s = v := Option.some.inj run_eq
    exact ⟨0, s, rfl, holds, rfl, timer.resolve_right (by simp [running])⟩
  | succ j ih =>
    obtain ⟨t, next, holds', now | same⟩ := progress s holds running
    · exact ⟨0, s, rfl, holds, rfl, now⟩
    · rw [run_of_step j next] at run_eq
      obtain ⟨i, u, run_eq', holds'', block, now⟩ := ih holds' (same ▸ running) run_eq
      exact ⟨i + 1, u, (run_of_step i next).trans run_eq', holds'', block.trans same, now⟩

/-- On a weakly fair run the TICKs left are taken one after the other, and the last one stops. -/
theorem KeepsRunning.run_to_idle (fair : WeaklyFair s) :
    ∃ k t, run k s = some t ∧ Q t ∧ t.block.running = false := by
  induction left : ticksToStop s.block using Nat.strong_induction_on generalizing s with
  | _ left' ih =>
    cases running : s.block.running with
    | false => exact ⟨0, s, rfl, holds, running⟩
    | true =>
      obtain ⟨j, u, run_u, holds_u, block, timer⟩ := progress.run_to_timer holds running (fair 0 s rfl running)
      rw [← block] at running left
      obtain ⟨t, next, holds_t, -⟩ := progress u holds_u running
      have run_t : run (j + 1) s = some t := by
        rw [run_add, run_u, Option.bind_some, run_one_of_step next]
      have tick := step_of_timerMoves timer next
      rcases Block.ticksToStop_tick u.config running with ⟨stopped, -⟩ | ⟨-, fewer, -⟩
      · exact ⟨j + 1, t, run_t, holds_t, tick ▸ stopped⟩
      · rw [← tick] at fewer
        obtain ⟨k, v, run_v, rest⟩ := ih _ (by omega) holds_t (fair.of_run run_t) rfl
        exact ⟨j + 1 + k, v, by rw [run_add, run_t, Option.bind_some, run_v], rest⟩

end KeepsRunning

/-- While the block runs, a step is TIMER's, or it takes the next input; if that is an instruction but no command, the
block stays and only a WAITSTOP is issued again. -/
theorem step_of_running_of_quiet {s : State} (running : s.block.running = true)
    (quiet : ∀ e rest, s.inputs = e :: rest → ∃ i, fetch e = .instr i ∧ ¬ IsCommand i) :
    ∃ t, step s = .next t ∧
      ((TimerMoves s ∧ t.inputs = s.inputs) ∨
       (t.block = s.block ∧ ∃ e rest, s.inputs = e :: rest ∧
        ((fetch e = .instr .waitstop ∧ t.inputs = .pseudo .waitstop :: rest) ∨
         (fetch e ≠ .instr .waitstop ∧ t.inputs = rest)))) := by
  rcases step_cases s with ⟨⟨idle, -⟩, -⟩ | ⟨-, later, k, timer, tick⟩ | ⟨e, rest, later, k, hi, -, -, taken⟩
  · simp [running] at idle
  · exact ⟨_, tick, .inl ⟨⟨_, timer⟩, rfl⟩⟩
  · obtain ⟨i, hf, notCommand⟩ := quiet e rest hi
    rcases taken with ⟨i', t, hf', exec_eq, next⟩ | ⟨hf', -⟩ | ⟨r, hf', -⟩
    · obtain rfl : i' = i := by simpa [hf'] using hf
      have unchanged := exec_block_of_not_writer exec_eq notCommand fun tick => fetch_ne_tick e (tick ▸ hf)
      refine ⟨t, next, .inr ⟨unchanged, e, rest, hi, ?_⟩⟩
      by_cases waits : i' = .waitstop
      · subst waits
        rw [exec_waitstop_of_running (s := s.taking rest later k) running] at exec_eq
        cases exec_eq
        exact .inl ⟨hf, rfl⟩
      · refine .inr ⟨by simpa [hf] using waits, ?_⟩
        exact (exec_inputs exec_eq).resolve_right fun again => waits again.1
    · simp [hf'] at hf
    · simp [hf'] at hf

theorem not_isCommand_waitstop : ¬ IsCommand .waitstop := by
  rintro (⟨m, init⟩ | ⟨n, move⟩)
  · cases init
  · cases move

/-- A WAITSTOP at the head of the inputs stays there while the block runs. -/
theorem keepsRunning_waitstop (rest : List Input) : KeepsRunning fun s => s.inputs = .pseudo .waitstop :: rest := by
  intro s hi running
  have quiet : ∀ e rest', s.inputs = e :: rest' → ∃ i, fetch e = .instr i ∧ ¬ IsCommand i := by
    intro e rest' hi'
    obtain ⟨rfl, rfl⟩ := List.cons.inj (hi.symm.trans hi')
    exact ⟨.waitstop, rfl, not_isCommand_waitstop⟩
  obtain ⟨t, next, ⟨timer, inputs⟩ | ⟨same, e, rest', hi', issued⟩⟩ := step_of_running_of_quiet running quiet
  · exact ⟨t, next, inputs.trans hi, .inl timer⟩
  · obtain ⟨rfl, rfl⟩ := List.cons.inj (hi.symm.trans hi')
    rcases issued with ⟨-, again⟩ | ⟨notWaitstop, -⟩
    · exact ⟨t, next, again, .inr same⟩
    · exact absurd rfl notWaitstop

/-- The state of a move to the TARGET `n` that HOST lets run: the invariants hold and only reads and WAITSTOPs are left
to issue. -/
structure Undisturbed (n : Nat) (s : State) : Prop where
  invariants : Invariants s
  quiet      : ∀ e ∈ s.inputs, ∃ i, fetch e = .instr i ∧ ¬ IsCommand i
  target     : s.block.stepsTaken.toNat + s.block.stepsRemaining.toNat = n

/-- No read or WAITSTOP disturbs a move, and a TICK keeps its TARGET. -/
theorem keepsRunning_undisturbed (n : Nat) : KeepsRunning (Undisturbed n) := by
  intro s ⟨inv, quiet, target⟩ running
  obtain ⟨t, next, ⟨timer, inputs⟩ | ⟨same, e, rest, hi, issued⟩⟩ :=
    step_of_running_of_quiet running fun e rest hi => quiet e (by simp [hi])
  · refine ⟨t, next, ⟨step_keeps_invariants inv next, inputs ▸ quiet, ?_⟩, .inl timer⟩
    rw [step_of_timerMoves timer next, Block.tick_target _ inv.countsFitTarget, target]
  · have quiet_rest : ∀ e' ∈ rest, ∃ i, fetch e' = .instr i ∧ ¬ IsCommand i :=
      fun e' mem => quiet e' (by simp [hi, mem])
    refine ⟨t, next, ⟨step_keeps_invariants inv next, ?_, same ▸ target⟩, .inr same⟩
    rcases issued with ⟨-, again⟩ | ⟨-, done⟩
    · rw [again]
      exact List.forall_mem_cons.mpr ⟨⟨.waitstop, rfl, not_isCommand_waitstop⟩, quiet_rest⟩
    · rwa [done]

/-- Settles O59: both a polling WAITSTOP and an undisturbed move keep a running block running until TIMER stops it. -/
theorem fairRunsEndTheMove : Obligations.FairRunsEndTheMove := by
  refine ⟨fun s rest hi fair => ?_, fun s inv fair running quiet => ?_⟩
  · obtain ⟨k, u, run_u, hu, idle⟩ := (keepsRunning_waitstop rest).run_to_idle hi fair
    have run_t : run (k + 1) s = some { u with readLog := u.block.status :: u.readLog, inputs := rest } := by
      rw [run_add, run_u, Option.bind_some, run_one_of_step (step_waitstop_of_idle hu idle)]
    exact ⟨k + 1, _, run_t, rfl, idle, fun inv => (run_keeps_invariants inv run_t).stepsRemaining_of_idle idle⟩
  · obtain ⟨k, t, run_t, ⟨inv_t, -, target⟩, idle⟩ :=
      (keepsRunning_undisturbed _).run_to_idle ⟨inv, quiet, rfl⟩ fair
    have none_left := inv_t.stepsRemaining_of_idle idle
    rw [none_left] at target
    exact ⟨k, t, run_t, idle, none_left, target⟩

/-! ## A schedule that gives TIMER its turns -/

/-- A TICK by the schedule uses its turn and writes the block, and nothing else. -/
theorem step_of_timer_scheduled {s : State} {e : Input} {rest : List Input} {later : List Agent}
    (hi : s.inputs = e :: rest) (running : s.block.running = true) (hs : s.schedule = .timer :: later) :
    step s = .next { s with block := Block.tick s.config s.block, schedule := later } :=
  (step_of_timer (arbitrate_of_timer_scheduled hi running hs)).trans (exec_tick_of_running running)

/-- A poll by the schedule uses its turn and reads STATUS, and nothing else. -/
theorem step_waitstop_of_host_scheduled {s : State} {rest : List Input} {later : List Agent}
    (hi : s.inputs = .pseudo .waitstop :: rest) (running : s.block.running = true)
    (hs : s.schedule = .host :: later) :
    step s = .next { s with schedule := later, readLog := s.block.status :: s.readLog } := by
  rw [step_of_instr (arbitrate_of_host_scheduled hi running hs) rfl]
  refine (exec_waitstop_of_running (s := s.taking rest later s.choices) running).trans ?_
  rw [hi]

/-- Turn by turn: each of HOST's is one read more, each of TIMER's one TICK fewer, and after the last TICK one more
read falls through. -/
theorem run_waitstop_of_turns {s : State} {turns later : List Agent} (hi : s.inputs = [.pseudo .waitstop])
    (running : s.block.running = true) (hs : s.schedule = turns ++ .timer :: later)
    (enough : turns.count .timer + 1 = ticksToStop s.block) :
    ∃ t, run (turns.length + 2) s = some t ∧ t.block.running = false ∧ t.inputs = [] ∧ t.schedule = later ∧
      t.readLog.length = s.readLog.length + turns.count .host + 1 := by
  induction turns generalizing s with
  | nil =>
    have tick := step_of_timer_scheduled hi running hs
    rw [List.count_nil] at enough
    rcases Block.ticksToStop_tick s.config running with ⟨stopped, -⟩ | ⟨-, -, two_le⟩
    · have poll := step_waitstop_of_idle
        (s := { s with block := Block.tick s.config s.block, schedule := later }) hi stopped
      exact ⟨_, (run_of_step 1 tick).trans (run_one_of_step poll), stopped, rfl, rfl, rfl⟩
    · omega
  | cons a turns ih =>
    cases a with
    | host =>
      have poll := step_waitstop_of_host_scheduled hi running hs
      rw [List.count_cons_of_ne (by decide)] at enough
      obtain ⟨t, run_t, idle, inputs, schedule, reads⟩ :=
        ih (s := { s with schedule := turns ++ .timer :: later, readLog := s.block.status :: s.readLog })
          hi running rfl enough
      refine ⟨t, (run_of_step _ poll).trans run_t, idle, inputs, schedule, ?_⟩
      rw [reads, List.count_cons_self, List.length_cons]
      omega
    | timer =>
      have tick := step_of_timer_scheduled hi running hs
      rw [List.count_cons_self] at enough
      rcases Block.ticksToStop_tick s.config running with ⟨-, last⟩ | ⟨still, fewer, -⟩
      · omega
      · obtain ⟨t, run_t, idle, inputs, schedule, reads⟩ :=
          ih (s := { s with block := Block.tick s.config s.block, schedule := turns ++ .timer :: later })
            hi still rfl (by show _ = ticksToStop (Block.tick s.config s.block); omega)
        refine ⟨t, (run_of_step _ tick).trans run_t, idle, inputs, schedule, ?_⟩
        rw [reads, List.count_cons_of_ne (by decide)]

/-- Settles O57. -/
theorem waitstopEndsOnceTimerHasItsTurns : Obligations.WaitstopEndsOnceTimerHasItsTurns :=
  fun _ hi => ⟨fun idle => ⟨_, run_one_of_step (step_waitstop_of_idle hi idle), rfl, rfl⟩,
    fun _ _ running hs enough => run_waitstop_of_turns hi running hs enough⟩

/-! ## A read after a command (R60) -/

/-- A command writes the block by the configuration and the block alone; the block then runs for 2n TICKs, INIT's n
being 0. -/
theorem exists_commandBlock {i : Instr} {n : Count}
    (command : (∃ m, i = .init m) ∧ n = 0#16 ∨ moveSteps i = some n) :
    ∃ write : Config → Block → Block, (∀ s, exec i s = .next (s.withBlock (write s.config s.block))) ∧
      ∀ c b, (∀ j < 2 * n.toNat, ((Block.tick c)^[j] (write c b)).running = true) ∧
        ((Block.tick c)^[2 * n.toNat] (write c b)).running = false := by
  rcases command with ⟨⟨m, rfl⟩, rfl⟩ | move
  · exact ⟨fun c b => Block.init c m b, exec_init m, fun c b => ⟨nofun, rfl⟩⟩
  · obtain ⟨o, rfl, -, exec_eq⟩ := exec_of_moveSteps move
    refine ⟨fun _ b => b.move o, exec_eq, fun c b => ⟨fun j h => Block.moveTicks_running c o b h, ?_⟩⟩
    obtain ⟨stopped, -⟩ := Block.moveTicks_stopped c o b
    exact stopped

section Ticks
variable {s : State} {k : Nat}
  (running : ∀ j < k, ((Block.tick s.config)^[j] s.block).running = true)
include running

/-- With nothing issued, a running block takes one TICK after the other. -/
theorem run_ticks_alone (alone : s.inputs = []) :
    run k s = some (s.withBlock ((Block.tick s.config)^[k] s.block)) := by
  induction k generalizing s with
  | zero => rfl
  | succ k ih =>
    rw [run_of_step k (step_of_alone alone (running 0 (Nat.succ_pos k)))]
    exact ih (s := s.withBlock (Block.tick s.config s.block)) (fun j h => running (j + 1) (Nat.succ_lt_succ h)) alone

/-- With something issued, it does so where the schedule gives TIMER the turns. -/
theorem run_ticks_scheduled {e : Input} {rest : List Input} {later : List Agent} (hi : s.inputs = e :: rest)
    (hs : s.schedule = List.replicate k .timer ++ later) :
    run k s = some { s with block := (Block.tick s.config)^[k] s.block, schedule := later } := by
  induction k generalizing s with
  | zero =>
    obtain rfl : s.schedule = later := hs
    rfl
  | succ k ih =>
    rw [run_of_step k (step_of_timer_scheduled hi (running 0 (Nat.succ_pos k)) hs)]
    exact ih
      (s := { s with block := Block.tick s.config s.block, schedule := List.replicate k .timer ++ later })
      (fun j h => running (j + 1) (Nat.succ_lt_succ h)) hi rfl

end Ticks

/-- HOST's turn first where the block runs, and no turn needed where it does not. -/
abbrev hostTurnIf (running : Bool) (later : List Agent) : List Agent := (if running then [.host] else []) ++ later

/-- With a schedule that gives HOST the turn where it needs one, the input's instruction runs. -/
theorem step_of_hostTurnIf {s : State} {e : Input} {rest : List Input} {i : Instr} {later : List Agent}
    (hi : s.inputs = e :: rest) (hf : fetch e = .instr i) (hs : s.schedule = hostTurnIf s.block.running later) :
    step s = exec i { s with inputs := rest, schedule := later } := by
  cases running : s.block.running with
  | true =>
    rw [running] at hs
    exact step_of_instr (arbitrate_of_host_scheduled hi running hs) hf
  | false =>
    rw [running] at hs
    obtain rfl : s.schedule = later := hs
    exact step_of_instr (arbitrate_of_idle hi running) hf

/-- The read of a register at its offset is the read of that register. -/
theorem fetch_read_offset (r : ReadRegister) :
    ∃ i, fetch (.access (.read r.offset 4)) = .instr i ∧ ∀ s, exec i s = .next (hostRead r s) := by
  cases r with
  | status => exact ⟨.rdstat, rfl, fun _ => rfl⟩
  | remaining => exact ⟨.rdrem, rfl, fun _ => rfl⟩
  | taken => exact ⟨.rdtaken, rfl, fun _ => rfl⟩
  | periodRd => exact ⟨.rdper, rfl, fun _ => rfl⟩
  | halfRd => exact ⟨.rdhalf, rfl, fun _ => rfl⟩

/-- The k TICKs of the schedule, and then the read of what they leave. -/
theorem run_ticks_read {s : State} {r : ReadRegister} {k : Nat} {later : List Agent}
    (running : ∀ j < k, ((Block.tick s.config)^[j] s.block).running = true)
    (hi : s.inputs = [.access (.read r.offset 4)])
    (hs : s.schedule =
      List.replicate k .timer ++ hostTurnIf ((Block.tick s.config)^[k] s.block).running later) :
    run (k + 1) s =
      some (hostRead r { s with block := (Block.tick s.config)^[k] s.block, inputs := [], schedule := later }) := by
  obtain ⟨read, hf, exec_read⟩ := fetch_read_offset r
  rw [run_add, run_ticks_scheduled running hi hs, Option.bind_some]
  refine run_one_of_step (Eq.trans (step_of_hostTurnIf ?_ hf ?_) (exec_read _))
  · exact hi
  · rfl

/-- Settles O60: the command's step, the k TICKs of the schedule, and the read, against the same command and TICKs with
nothing else issued. -/
theorem readAfterWriteSeesTheCommand : Obligations.ReadAfterWriteSeesTheCommand := by
  intro i n e r s k later command hf le hi hs
  obtain ⟨write, exec_eq, running⟩ := exists_commandBlock command
  obtain ⟨before_stop, stopped⟩ := running s.config s.block
  have ticking : ∀ j < k, ((Block.tick s.config)^[j] (write s.config s.block)).running = true :=
    fun j h => before_stop j (by omega)
  have read_turn : (if k < 2 * n.toNat then .host :: later else later) =
      hostTurnIf ((Block.tick s.config)^[k] (write s.config s.block)).running later := by
    split
    · next more =>
      rw [before_stop k more]
      rfl
    · next all =>
      obtain rfl : k = 2 * n.toNat := by omega
      rw [stopped]
      rfl
  rw [read_turn, List.append_assoc] at hs
  have written := (step_of_hostTurnIf hi hf hs).trans (exec_eq _)
  have run_read := (run_of_step (k + 1) written).trans (run_ticks_read ticking rfl rfl)
  exact ⟨_, _, _, exec_eq _, run_ticks_alone ticking rfl, run_read, rfl, rfl, rfl, rfl⟩

end Sys2Proof.Machine
end

section
/-! PROOFS. 30_encoding.md sections 3 and 4: the transactions (R88), reserved words (R85), re-encoding (R84, R87) and
the assembler (R88, R89). -/

namespace Sys2Proof

/-! ## Transactions (R88) -/

theorem decodeAccess_writeCommand_eq_instr {w : Word} {i : Instr} (h : decodeWord w = some i) :
    decodeAccess (writeCommand w) = .instr i := by
  rw [decodeAccess_writeCommand, decodeCommand, h]

/-- The commands' transactions are the writes of their words, which the decoder reads back (R87). -/
theorem encode_command {i j : Instr} (write : encode i = (encodeWord i).map writeCommand)
    (h : ∃ w, encodeWord i = some w ∧ decodeWord w = some j) :
    ∃ a, encode i = some a ∧ decodeAccess a = .instr j := by
  obtain ⟨w, encoded, decoded⟩ := h
  exact ⟨writeCommand w, by rw [write, encoded, Option.map_some], decodeAccess_writeCommand_eq_instr decoded⟩

/-- CANCEL has MOVS #0's word (R89). -/
theorem encodeWord_cancel (d : Dir) : encodeWord (.cancel d) = encodeWord (.movs 0#16 d) := by
  cases d <;> rfl

theorem decodeWord_encodeWord_movs (s : Count) (d : Dir) :
    ∃ w, encodeWord (.movs s d) = some w ∧ decodeWord w = some (.movs s d) :=
  ⟨_, encodeWord_movs s d, by simp [decodeWord_of_op_movs]⟩

/-- Every instruction with words of its own decodes back from its transaction. -/
theorem decodeAccess_encode {i : Instr} (own : i.hasOwnWord = true) :
    ∃ a, encode i = some a ∧ decodeAccess a = .instr i := by
  cases i with
  | init m => exact encode_command rfl ⟨_, encodeWord_init m, by simp [decodeWord_of_op_init]⟩
  | movs s d => exact encode_command rfl (decodeWord_encodeWord_movs s d)
  | rotc s d => exact encode_command rfl ⟨_, encodeWord_rotc s d, by simp [decodeWord_of_op_rotc]⟩
  | rotw s v d => exact encode_command rfl ⟨_, encodeWord_rotw s v d, by simp [decodeWord_of_op_rotw]⟩
  | rdstat | rdrem | rdtaken | rdper | rdhalf => exact ⟨_, rfl, rfl⟩
  | tick | waitstop | cancel => cases own

/-! ## Reserved words (R85) -/

/-- OP as a number. -/
theorem opField_toNat (w : Word) : (opField w).toNat = w.toNat / 2 ^ 16 % 8 := by
  rw [opField, BitVec.extractLsb'_toNat, Nat.shiftRight_eq_div_pow]

/-- Bits 31:23 as a number: nothing stands above them. -/
theorem highBits_toNat (w : Word) : (w.extractLsb' 23 9).toNat = w.toNat / 2 ^ 23 := by
  rw [BitVec.extractLsb'_toNat, Nat.shiftRight_eq_div_pow]
  omega

/-- A word that decodes has clear reserved bits and the OP of the command it is. -/
theorem decodeWord_eq_some_cases {w : Word} {i : Instr} (h : decodeWord w = some i) :
    reservedBitsClear w = true ∧
      ((opField w = 0b001#3 ∧ i = .init (Mode.ofBit (w.getLsbD 22))) ∨
       (opField w = 0b010#3 ∧ i = .movs (stepsField w) (Dir.ofBit (w.getLsbD 20))) ∨
       (opField w = 0b011#3 ∧ i = .rotc (stepsField w) (Rotation.ofBit (w.getLsbD 20))) ∨
       (opField w = 0b100#3 ∧
        i = .rotw (stepsField w) (Wheel.ofBit (w.getLsbD 21)) (Rotation.ofBit (w.getLsbD 20)))) := by
  unfold decodeWord at h
  split at h
  · next clear =>
    refine ⟨clear, ?_⟩
    split at h
    · next op => exact .inl ⟨op, (Option.some.inj h).symm⟩
    · split at h
      · next op => exact .inr (.inl ⟨op, (Option.some.inj h).symm⟩)
      · split at h
        · next op => exact .inr (.inr (.inl ⟨op, (Option.some.inj h).symm⟩))
        · split at h
          · next op => exact .inr (.inr (.inr ⟨op, (Option.some.inj h).symm⟩))
          · cases h
  · cases h

/-- A word decodes exactly when its reserved bits are clear and OP is a command's. -/
theorem decodeWord_isSome_iff (w : Word) :
    (decodeWord w).isSome = true ↔
      reservedBitsClear w = true ∧ 1 ≤ (opField w).toNat ∧ (opField w).toNat ≤ 4 := by
  constructor
  · intro decodes
    obtain ⟨i, h⟩ := Option.isSome_iff_exists.mp decodes
    obtain ⟨clear, ⟨op, -⟩ | ⟨op, -⟩ | ⟨op, -⟩ | ⟨op, -⟩⟩ := decodeWord_eq_some_cases h <;>
      exact ⟨clear, by rw [op]; decide⟩
  · rintro ⟨clear, low, high⟩
    have op : opField w = 0b001#3 ∨ opField w = 0b010#3 ∨ opField w = 0b011#3 ∨ opField w = 0b100#3 := by
      bv_omega
    rcases op with op | op | op | op
    · rw [decodeWord_of_op_init ⟨clear, op⟩, Option.isSome_some]
    · rw [decodeWord_of_op_movs ⟨clear, op⟩, Option.isSome_some]
    · rw [decodeWord_of_op_rotc ⟨clear, op⟩, Option.isSome_some]
    · rw [decodeWord_of_op_rotw ⟨clear, op⟩, Option.isSome_some]

/-- R85's list of reserved words. -/
theorem decodeWord_eq_none_iff (w : Word) :
    decodeWord w = none ↔
      w.toNat / 2 ^ 23 ≠ 0 ∨ w.getLsbD 19 = true ∨
        w.toNat / 2 ^ 16 % 8 = 0 ∨ w.toNat / 2 ^ 16 % 8 = 5 ∨ w.toNat / 2 ^ 16 % 8 = 6 ∨
        w.toNat / 2 ^ 16 % 8 = 7 := by
  have high : w.extractLsb' 23 9 = 0#9 ↔ w.toNat / 2 ^ 23 = 0 := by
    rw [← BitVec.toNat_inj, highBits_toNat, BitVec.toNat_ofNat]
  have command_op (op : Nat) (h : op < 8) : (1 ≤ op ∧ op ≤ 4) ↔ ¬ (op = 0 ∨ op = 5 ∨ op = 6 ∨ op = 7) := by omega
  rw [← Option.not_isSome_iff_eq_none, decodeWord_isSome_iff, reservedBitsClear_iff, opField_toNat, high,
    ← Bool.not_eq_true, command_op _ (Nat.mod_lt _ (by decide))]
  tauto

/-- A full write to CMD is rejected as reserved exactly when its word is. -/
theorem decodeAccess_writeCommand_eq_reserved_iff (w : Word) :
    decodeAccess (writeCommand w) = .rejected .reservedCommand ↔ decodeWord w = none := by
  rw [decodeAccess_writeCommand]
  cases h : decodeWord w <;> simp [decodeCommand, h]

/-! ## Re-encoding (R84, R87) -/

@[simp] theorem Mode.bit_ofBit (b : Bool) : (Mode.ofBit b).bit = b := by cases b <;> rfl

@[simp] theorem Dir.bit_ofBit (b : Bool) : (Dir.ofBit b).bit = b := by cases b <;> rfl

@[simp] theorem Rotation.bit_ofBit (b : Bool) : (Rotation.ofBit b).bit = b := by cases b <;> rfl

@[simp] theorem Wheel.bit_ofBit (b : Bool) : (Wheel.ofBit b).bit = b := by cases b <;> rfl

/-- A mask that keeps the decoder's bits, and each operand field or none of it, on a word with clear reserved bits. -/
theorem and_fieldsMask {w : Word} (clear : reservedBitsClear w = true) (mode wheel dir : Bool) (steps : Count) :
    w &&& fieldsWord (BitVec.allOnes 9) mode wheel dir true (BitVec.allOnes 3) steps =
      fieldsWord 0#9 (w.getLsbD 22 && mode) (w.getLsbD 21 && wheel) (w.getLsbD 20 && dir) false (opField w)
        (stepsField w &&& steps) := by
  obtain ⟨high, bit19⟩ := (reservedBitsClear_iff w).mp clear
  conv_lhs => rw [eq_fieldsWord w, fieldsWord_and, high, bit19]
  simp only [BitVec.and_allOnes, Bool.and_true]

theorem initMask_eq :
    0xFFCF0000#32 = fieldsWord (BitVec.allOnes 9) true false false true (BitVec.allOnes 3) 0#16 := by decide

theorem moveMask_eq :
    0xFF9FFFFF#32 = fieldsWord (BitVec.allOnes 9) false false true true (BitVec.allOnes 3) (BitVec.allOnes 16) := by
  decide

theorem rotwMask_eq :
    0xFFBFFFFF#32 = fieldsWord (BitVec.allOnes 9) false true true true (BitVec.allOnes 3) (BitVec.allOnes 16) := by
  decide

/-! ## The assembler (R88, R89) -/

theorem Keyword.mode?_isSome (k : Keyword) : k.mode?.isSome = k.isMode := by cases k <;> rfl

theorem Keyword.dir?_isSome (k : Keyword) : k.dir?.isSome = k.isDir := by cases k <;> rfl

theorem Keyword.rotation?_isSome (k : Keyword) : k.rotation?.isSome = k.isRotation := by cases k <;> rfl

theorem Keyword.wheel?_isSome (k : Keyword) : k.wheel?.isSome = k.isWheel := by cases k <;> rfl

theorem stepLiteral_of_lt {n : Nat} (h : n < 65536) : stepLiteral n = some (BitVec.ofNat 16 n) := if_pos h

theorem stepLiteral_isSome (n : Nat) : (stepLiteral n).isSome = decide (n < 65536) := by
  unfold stepLiteral
  split <;> simp [*]

/-- A line other than a raw CMD names an instruction exactly when it is well-formed: each operand has its check. -/
theorem Line.instr?_isSome {l : Line} (h : ∀ n, l ≠ .cmd n) : l.instr?.isSome = l.wellFormed := by
  cases l with
  | cmd n => exact absurd rfl (h n)
  | init k =>
    rw [Line.wellFormed, ← Keyword.mode?_isSome]
    cases hk : k.mode? <;> simp [Line.instr?, hk]
  | movs n k =>
    rw [Line.wellFormed, ← stepLiteral_isSome, ← Keyword.dir?_isSome]
    cases hn : stepLiteral n <;> cases hk : k.dir? <;> simp [Line.instr?, hn, hk]
  | rotc n k =>
    rw [Line.wellFormed, ← stepLiteral_isSome, ← Keyword.rotation?_isSome]
    cases hn : stepLiteral n <;> cases hk : k.rotation? <;> simp [Line.instr?, hn, hk]
  | rotw n v k =>
    rw [Line.wellFormed, ← stepLiteral_isSome, ← Keyword.wheel?_isSome, ← Keyword.rotation?_isSome]
    cases hn : stepLiteral n <;> cases hv : v.wheel? <;> cases hk : k.rotation? <;>
      simp [Line.instr?, hn, hv, hk]
  | cancel k =>
    rw [Line.wellFormed, ← Keyword.dir?_isSome]
    cases hk : k.dir? <;> simp [Line.instr?, hk]
  | rdstat | rdrem | rdtaken | rdper | rdhalf | waitstop => rfl

/-- No line names TICK, which has no encoding (R90). -/
theorem Line.instr?_ne_tick (l : Line) : l.instr? ≠ some .tick := by
  cases l with
  | init k => cases hk : k.mode? <;> simp [Line.instr?, hk]
  | movs n k => cases hn : stepLiteral n <;> cases hk : k.dir? <;> simp [Line.instr?, hn, hk]
  | rotc n k => cases hn : stepLiteral n <;> cases hk : k.rotation? <;> simp [Line.instr?, hn, hk]
  | rotw n v k =>
    cases hn : stepLiteral n <;> cases hv : v.wheel? <;> cases hk : k.rotation? <;>
      simp [Line.instr?, hn, hv, hk]
  | cancel k => cases hk : k.dir? <;> simp [Line.instr?, hk]
  | rdstat | rdrem | rdtaken | rdper | rdhalf | waitstop | cmd => nofun

theorem Line.assemble_of_ne_cmd {l : Line} (h : ∀ n, l ≠ .cmd n) :
    l.assemble = l.instr?.bind Instr.input? := by
  cases l with
  | cmd n => exact absurd rfl (h n)
  | _ => rfl

theorem Instr.input?_of_hasOwnWord {i : Instr} (own : i.hasOwnWord = true) :
    i.input? = (encode i).map .access := by
  cases i with
  | tick | waitstop | cancel => cases own
  | _ => rfl

namespace Machine

/-- What HOST issues for an instruction, which is every one but TICK, is fetched as it. -/
theorem fetch_input? {i : Instr} (h : i ≠ .tick) : ∃ e, i.input? = some e ∧ fetch e = .instr i := by
  by_cases own : i.hasOwnWord = true
  · obtain ⟨a, encoded, decoded⟩ := decodeAccess_encode own
    exact ⟨.access a, by rw [Instr.input?_of_hasOwnWord own, encoded, Option.map_some],
      (fetch_access_eq_instr_iff a i).mpr decoded⟩
  · cases i with
    | tick => exact absurd rfl h
    | waitstop | cancel => exact ⟨_, rfl, rfl⟩
    | init | movs | rotc | rotw | rdstat | rdrem | rdtaken | rdper | rdhalf => exact absurd rfl own

/-- Settles O2. -/
theorem transactionsDecodeToTheirInstruction : Obligations.TransactionsDecodeToTheirInstruction :=
  ⟨fun _ own => decodeAccess_encode own,
    fun d => encode_command rfl (encodeWord_cancel d ▸ decodeWord_encodeWord_movs 0#16 d), ⟨_, rfl, rfl⟩, rfl⟩

/-- Settles O4: the rejected write is that of a word that does not decode, and with the turn it is refused. -/
theorem reservedWordsAreRefused : Obligations.ReservedWordsAreRefused := by
  intro w
  refine ⟨(decodeAccess_writeCommand_eq_reserved_iff w).trans (decodeWord_eq_none_iff w),
    fun s rest hi turn reserved => ?_⟩
  have rejected := (decodeAccess_writeCommand_eq_reserved_iff w).mpr reserved
  exact step_refused_of_fetch hi turn ((fetch_eq_refused_iff _ _).mpr ⟨_, rfl, .inl ⟨rfl, rejected⟩⟩)

/-- Settles O6: the encoder writes the fields its command reads, and 0 in those it ignores. -/
theorem reencodingClearsIgnoredFields : Obligations.ReencodingClearsIgnoredFields := by
  intro w i decoded
  obtain ⟨clear, ⟨op, rfl⟩ | ⟨op, rfl⟩ | ⟨op, rfl⟩ | ⟨op, rfl⟩⟩ := decodeWord_eq_some_cases decoded
  · rw [encodeWord_init, initMask_eq, and_fieldsMask clear, op]
    simp
  · rw [encodeWord_movs, moveMask_eq, and_fieldsMask clear, op, BitVec.and_allOnes]
    simp
  · rw [encodeWord_rotc, moveMask_eq, and_fieldsMask clear, op, BitVec.and_allOnes]
    simp
  · rw [encodeWord_rotw, rotwMask_eq, and_fieldsMask clear, op, BitVec.and_allOnes]
    simp

/-- The assembler's answer to any line but a raw CMD: none for an ill-formed one, and otherwise what is fetched as the
instruction the line names. -/
theorem assemble_cases {l : Line} (h : ∀ n, l ≠ .cmd n) :
    (l.wellFormed = false ∧ l.instr? = none ∧ l.assemble = none) ∨
    (l.wellFormed = true ∧ ∃ i e, l.instr? = some i ∧ l.assemble = some e ∧ fetch e = .instr i) := by
  have checked := Line.instr?_isSome h
  rw [Line.assemble_of_ne_cmd h]
  cases hl : l.instr? with
  | none =>
    rw [hl] at checked
    exact .inl ⟨checked.symm, rfl, rfl⟩
  | some i =>
    rw [hl] at checked
    obtain ⟨e, issued, fetched⟩ := fetch_input? fun tick => l.instr?_ne_tick (tick ▸ hl)
    exact .inr ⟨checked.symm, i, e, rfl, issued, fetched⟩

/-- A raw CMD line is the write of its word, where the literal fits one. -/
theorem assemble_cmd (n : Nat) :
    (n < 2 ^ 32 ∧ Line.assemble (.cmd n) = some (.access (writeCommand (BitVec.ofNat 32 n)))) ∨
    (¬ n < 2 ^ 32 ∧ Line.assemble (.cmd n) = none) := by
  by_cases fits : n < 2 ^ 32
  · exact .inl ⟨fits, if_pos fits⟩
  · exact .inr ⟨fits, if_neg fits⟩

/-- Settles O9: a raw CMD line by its literal, every other line by the checks of its operands. -/
theorem assemblerAgreesWithTheDecoder : Obligations.AssemblerAgreesWithTheDecoder := by
  refine ⟨fun n small => ?_, by simp [Line.instr?, Keyword.mode?, Keyword.dir?], fun l => ?_⟩
  · simp [Line.instr?, stepLiteral_of_lt small, Keyword.dir?, Keyword.rotation?, Keyword.wheel?]
  by_cases raw : ∃ n, l = .cmd n
  · obtain ⟨n, rfl⟩ := raw
    have checked : (Line.cmd n).wellFormed = decide (n < 2 ^ 32) := rfl
    rcases assemble_cmd n with ⟨fits, issued⟩ | ⟨tooLarge, rejected⟩
    · rw [checked, issued]
      refine ⟨by simpa using fits, nofun, ?_⟩
      rintro n' e ⟨⟩ ⟨⟩
      rfl
    · rw [checked, rejected]
      exact ⟨by simpa using tooLarge, nofun, nofun⟩
  · have notRaw : ∀ n, l ≠ .cmd n := not_exists.mp raw
    rcases assemble_cases notRaw with ⟨bad, unnamed, rejected⟩ | ⟨good, i, e, named, issued, fetched⟩
    · exact ⟨by simp [bad, rejected], by simp [unnamed], fun n _ h => absurd h (notRaw n)⟩
    · refine ⟨by simp [good, issued], fun i' e' named' issued' => ?_, fun n _ h => absurd h (notRaw n)⟩
      obtain rfl := Option.some.inj (named.symm.trans named')
      obtain rfl := Option.some.inj (issued.symm.trans issued')
      exact fetched

/-- Settles O10. -/
theorem sampleWordsDecode : Obligations.SampleWordsDecode := by
  unfold Obligations.SampleWordsDecode
  decide

end Machine

end Sys2Proof
end

section
/-! PROOFS. 40_host_commands.md sections 2 and 3: each move command with its operands written out (R106 to R108, and
R89 for CANCEL), and the reads (20_memory.md R55; R118 and R119). -/

namespace Sys2Proof

theorem Dir.bit_eq_decide (d : Dir) : d.bit = decide (d = .bwd) := by cases d <;> rfl

theorem Rotation.bit_eq_decide (d : Rotation) : d.bit = decide (d = .ccw) := by cases d <;> rfl

namespace Machine

/-! ## The move commands (R106 to R108) -/

theorem exec_movs (s : State) (n : Count) (d : Dir) :
    exec (.movs n d) s = .next { s with
      block := { s.block with
        dirL := decide (d = .bwd), dirR := decide (d = .bwd), phaseMask := 0b11#2, stepsTaken := 0#16,
        stepsRemaining := n, pulsePhase := .low, pulseL := false, pulseR := false,
        running := decide (n ≠ 0#16) } } := by
  rw [← d.bit_eq_decide, ← runningAfterMove_eq_decide]
  rfl

theorem exec_rotc (s : State) (n : Count) (d : Rotation) :
    exec (.rotc n d) s = .next { s with
      block := { s.block with
        dirL := decide (d = .ccw), dirR := !decide (d = .ccw), phaseMask := 0b11#2, stepsTaken := 0#16,
        stepsRemaining := n, pulsePhase := .low, pulseL := false, pulseR := false,
        running := decide (n ≠ 0#16) } } := by
  rw [← d.bit_eq_decide, ← runningAfterMove_eq_decide]
  rfl

theorem exec_rotw (s : State) (n : Count) (w : Wheel) (d : Rotation) :
    exec (.rotw n w d) s = .next { s with
      block := { s.block with
        dirL := decide (d = .ccw), dirR := !decide (d = .ccw),
        phaseMask := if w = .left then 0b10#2 else 0b01#2, stepsTaken := 0#16,
        stepsRemaining := n, pulsePhase := .low, pulseL := false, pulseR := false,
        running := decide (n ≠ 0#16) } } := by
  rw [← d.bit_eq_decide, ← runningAfterMove_eq_decide, ← wheelMask_eq]
  rfl

/-- CANCEL is MOVS #0 (R89). -/
theorem exec_cancel (s : State) (d : Dir) : exec (.cancel d) s = exec (.movs 0#16 d) s := rfl

/-- In CFG-A a move command after INIT starts from INIT's block, whatever the state was. -/
theorem hostMove_init_block (o : MoveOperands) (m : Mode) {s : State} (cfgA : s.config = Config.cfgA) :
    (hostMove o (s.withBlock (Block.init s.config m s.block))).block =
      (Block.init Config.cfgA m (Block.reset Config.cfgA)).move o := by
  rw [hostMove_block, State.withBlock_block, cfgA, Block.init_eq_init]

/-- Settles O23. -/
theorem movsDrivesBothMotorsAlike : Obligations.MovsDrivesBothMotorsAlike := by
  refine ⟨exec_movs, fun s cfgA => ⟨_, hostMove (movsOperands 7#16 .fwd) _, exec_init .half s, rfl, ?_⟩⟩
  rw [hostMove_init_block _ _ cfgA]
  decide

/-- Settles O24. -/
theorem rotcDrivesMotorsOppositely : Obligations.RotcDrivesMotorsOppositely := by
  refine ⟨exec_rotc, fun s cfgA => ⟨_, hostMove (rotcOperands 1000#16 .ccw) _, exec_init .half s, rfl, ?_⟩⟩
  rw [hostMove_init_block _ _ cfgA]
  decide

/-- Settles O25. -/
theorem rotwMasksTheNamedWheel : Obligations.RotwMasksTheNamedWheel := by
  refine ⟨exec_rotw, fun s cfgA => ⟨_, hostMove (rotwOperands 3#16 .left .cw) _, exec_init .full s, rfl, ?_⟩⟩
  rw [hostMove_init_block _ _ cfgA]
  decide

/-- Settles O26. -/
theorem cancelIsMovsZero : Obligations.CancelIsMovsZero :=
  fun s d => ⟨exec_cancel s d, (exec_cancel s d).trans (exec_movs s 0#16 d)⟩

/-! ## Reads (20_memory.md R55) -/

/-- Each of the five reads is the read of one register, in every state. -/
theorem exec_read {i : Instr} (h : i ∈ [Instr.rdstat, .rdrem, .rdtaken, .rdper, .rdhalf]) :
    ∃ r, ∀ s, exec i s = .next (hostRead r s) := by
  simp only [List.mem_cons, List.not_mem_nil, or_false] at h
  rcases h with rfl | rfl | rfl | rfl | rfl
  · exact ⟨.status, fun _ => rfl⟩
  · exact ⟨.remaining, fun _ => rfl⟩
  · exact ⟨.taken, fun _ => rfl⟩
  · exact ⟨.periodRd, fun _ => rfl⟩
  · exact ⟨.halfRd, fun _ => rfl⟩

/-- Settles O34: a register's value is a function of the block and the configuration, and a read leaves both. -/
theorem readsHaveNoSideEffect : Obligations.ReadsHaveNoSideEffect := by
  intro i s mem
  obtain ⟨r, exec_eq⟩ := exec_read mem
  exact ⟨s.block.readValue s.config r, exec_eq s, exec_eq _⟩

theorem exec_rdper (s : State) :
    exec .rdper s = .next { s with readLog := lowPeriodBits s.config s.block.period :: s.readLog } := rfl

theorem exec_rdhalf (s : State) :
    exec .rdhalf s = .next { s with readLog := lowPeriodBits s.config s.block.halfPeriod :: s.readLog } := rfl

/-- PERIOD from the table fits PERIOD_WIDTH bits, and so does its half. -/
theorem periodFromTable_lt {c : Config} {b : Block} (h : PeriodFromTable c b) :
    b.period.toNat < 2 ^ c.params.periodWidth ∧ b.halfPeriod.toNat < 2 ^ c.params.periodWidth := by
  obtain ⟨⟨j, inTable, period⟩, half⟩ := h
  obtain ⟨-, fits⟩ := c.entry_bounds inTable
  rw [← Config.entry_toNat c inTable, ← period] at fits
  exact ⟨fits, by omega⟩

/-- Settles O33: the reads return the low PERIOD_WIDTH bits, which are all of a PERIOD from the table. -/
theorem periodReadsReturnThePeriods : Obligations.PeriodReadsReturnThePeriods := by
  refine ⟨exec_rdper, exec_rdhalf, fun s fromTable => ?_, fun s m cfgA => ?_⟩
  · obtain ⟨period, half⟩ := periodFromTable_lt fromTable
    rw [exec_rdper, exec_rdhalf, lowPeriodBits_of_lt _ period, lowPeriodBits_of_lt _ half]
    exact ⟨rfl, rfl⟩
  · refine ⟨_, _, _, exec_init m s, exec_rdper _, ?_, exec_rdhalf _, ?_⟩
    · rw [State.withBlock_config, State.withBlock_block, Block.init_period, cfgA]
      rfl
    · rw [State.withBlock_config, State.withBlock_block, Block.init_halfPeriod, cfgA]
      rfl

end Machine

end Sys2Proof
end
